-- ==== Sys2Proof/Word.lean ====
section
/-! DEFINITION. Word types, unit numbers and the sparse map type that State is made of (00_scope.md R2, 01_machine.md R18 to R23). -/
namespace Sys2Proof

abbrev Byte := BitVec 8
abbrev Word32 := BitVec 32
abbrev Word64 := BitVec 64
/-- A sled, numbered by slot (R18). -/
abbrev SledId := Fin 16
/-- Rack Factor A is 0 and B is 1 (R19). -/
abbrev RfId := Fin 2
/-- Logical core number on its sled: 0 to 47 on die 0, 48 to 95 on die 1 (R21). -/
abbrev CoreId := Fin 96
abbrev DieId := Fin 2
/-- A tenant ID is 6 bits wide (R23). -/
abbrev TenantId := Fin 64
abbrev QueueId := Fin 32
abbrev EngineId := Fin 16
/-- A hit queue or a result queue of an engine. -/
abbrev RingId := Fin 64
/-- Depot number, stack x 64 + bank set (R22). -/
abbrev DepotId := Fin 512
/-- An offset in the 64 MiB config space of a node (R11). -/
abbrev CfgOff := BitVec 26

/-- A sparse table: keys strictly rising, and no entry equal to the value an unlisted key has.
The operations are in Machine/Map.lean. -/
abbrev Map (α : Type) := List (Nat × α)

end Sys2Proof
end

