-- ==== Sys2Proof/Config.lean ====
section
/-! DEFINITION. The free values: what the spec leaves open and the machine goes on with. None has a body, so no proof can see a value. A sled's values are taken at (sled, counter), and the counter of State steps at each use. -/
namespace Sys2Proof.Config

/-- Whether a cache keeps a line that was filled or stored, or whether a translation cache hits (R121, R196): log 20, 21. -/
opaque freeBool : Nat → Nat → Bool
/-- A number the spec gives no rule for. -/
opaque freeNat : Nat → Nat → Nat
/-- A word the spec leaves undefined. -/
opaque freeWord : Nat → Nat → BitVec 64
/-- What a read finds in a word with three or more flipped bits (R203): the data, and whether it is reported
uncorrectable, counted as corrected, or neither. -/
opaque manyFlips : BitVec 64 → BitVec 72 → BitVec 64 × Fin 3

/-- The box test of a ray whose transformed origin or direction is not finite (R263, R271): whether each child is hit and its tnear,
from the ray's o, d and the child's lo, hi. Log 27. -/
opaque oddBox : List Nat → List Nat → Option Nat

/-- Row `row` of the fuse bank of sled `sl` as it left manufacture (Table 15.4). Log 6. -/
opaque fuses (sl row : Nat) : BitVec 32
/-- A byte of the boot flash of sled `sl` as it was delivered (Table 15.2). Log 7. -/
opaque flash (sl addr : Nat) : BitVec 8
/-- Firmware version of the Rack Factors: major, minor (R402). -/
opaque rfFw : BitVec 8 × BitVec 8
/-- The rack configuration record (R402): its digest, SPLIT, and TNT_CTL and TNT_ALLOT of each tenant and the protected ranges of each sled. -/
opaque rackDigest : BitVec 384
/-- The configuration digest that sled `sl` computes at start-up, over the record its flash holds. -/
opaque sledDigest (sl : Nat) : BitVec 384
opaque rackSplit : BitVec 32
opaque rackTenant : Nat → Nat → BitVec 32 × BitVec 32
opaque rackRange : Nat → Nat → BitVec 64
/-- How many shifts of the backoff LFSR a draw takes, and the number it takes from the register (R456). -/
opaque lfsrShifts : Nat
opaque lfsrDraw : BitVec 16 → Nat
/-- A slot of the rack holds a sled (R473). Log 60. -/
opaque occupied (slot : Nat) : Bool

end Sys2Proof.Config
end

