-- ==== Sys2Proof/Syntax.lean ====
section
/-! DEFINITION. The commands the machine takes: one constructor per row of spec/opcode_table.json, and the types of their operands. -/
namespace Sys2Proof

/-- A node with a config space: a sled, or a Rack Factor's management space (Table 0.3, Table 12.13). -/
inductive Node where
  | sled (s : SledId)
  | rf (b : RfId)
deriving DecidableEq, Repr

/-- Who accesses config space (R8, R9, R197, Table 12.8): the node's own Factor, a Rack Factor,
a core of some sled, or the TAP. The two Rack Factors are one requester: they share a shadow and a held write (DESIGN CHOICE, log 13). -/
inductive Requester where
  | factor
  | rackFactor
  | core (s : SledId) (c : CoreId)
  | tap
deriving DecidableEq, Repr

/-- The blocks of Table 0.3. -/
inductive Block where
  | ident | bell | tenants | scheduler | memory | porter | te | rfe | depots | twin | power | courier | fuses
deriving DecidableEq, Repr

/-- The contents of a BELL frame (02_bell.md, Distribution to the sleds). The table of holders that goes with it (R395) is the active Rack Factor's TWN_RK_LEASE.
`offset` is the sled's own boundary time less the message's, the path delay `delay` already removed. -/
structure BellMsg where
  count : Word64
  time : Word64
  period : Word32
  num : BitVec 16
  den : BitVec 16
  offset : Int
  delay : Word32
deriving DecidableEq, Repr

/-- What kinds of PTP message a Rack Factor's clock receives (R509). -/
inductive PtpKind where
  | announce | sync | followUp | delayResp | peerDelay | metadataTlv
deriving DecidableEq, Repr

/-- A PTP message: its domain, the servo offset in ns that the clock takes from it, and the PTP time in ns at which it is received (R508, R509). -/
structure PtpMsg where
  kind : PtpKind
  domain : BitVec 8
  offset : Int
  ptpTime : Int
deriving DecidableEq, Repr

/-- One manifest entry (Table 15.7): ID, version and the words of its body. -/
structure ManEntry where
  id : BitVec 16
  version : BitVec 8
  body : List Word32
deriving DecidableEq, Repr

/-- A JOIN (R402): firmware version, configuration digest and manifest. -/
structure JoinMsg where
  fwMajor : BitVec 8
  fwMinor : BitVec 8
  digest : BitVec 384
  manifest : List ManEntry
deriving DecidableEq, Repr

/-- The non-volatile writes of Table 13.3, other than fuse programming; event-log entries by their sizes in bytes. -/
inductive NvWrite where
  | program (addr : Nat) (bytes : List Byte)
  | erase (block : Nat)
  | statusReg (v : Byte)
  | configReg (v : Byte)
  | ledger
  | eventLog (entries : List Nat)
deriving DecidableEq, Repr

/-- The two serial interfaces of a Factor (14_courier.md). -/
inductive SerialLine where
  | console | courier
deriving DecidableEq, Repr

/-- What a transmitting node reads back (R455): every bit matches, a sent 1 reads 0, or a sent 0 reads 1. -/
inductive Readback where
  | isOk | collision | driveFail
deriving DecidableEq, Repr

/-- A Courier frame without PRE, SOF and CRC (Table 14.1). -/
structure CourierFrame where
  src : Byte
  dst : Byte
  type : Byte
  seq : Byte
  payload : List Byte
deriving DecidableEq, Repr

/-- What start-up finds on a sled (Table 15.1 steps 2 to 10): the fuse row whose sensing passes still
disagree (R490), the flash's SFDP (R474), training and self-test results (R481), and the links. -/
structure SelfTest where
  badRow : Option (Fin 128)
  sfdpOk : Bool
  mode144 : Bool
  mode114 : Bool
  coreFail : BitVec 100
  schedFail : BitVec 2
  l2Fail : BitVec 2
  porterFail : BitVec 2
  teFail : BitVec 16
  rfeFail : BitVec 2
  depotFail : BitVec 512
  bankFail : BitVec 512
  stackFail : BitVec 8
  ioFail : Bool
  portOk : Bool
  tetherOk : Bool
deriving DecidableEq, Repr

/-- Molsal private TAP instructions (R480): core halt and memory access. -/
inductive TapOp where
  | halt (c : CoreId)
  | letGo (c : CoreId)
  | read (off : Nat)
  | write (off : Nat) (v : Word64)
deriving DecidableEq, Repr

/-- The commands, in the order of spec/opcode_table.json. Operands: `sl` a sled, `c` a core of it, `t` a tenant,
`q` one of its queues, `e` an engine, `d` a die or a Depot, `b` a Rack Factor, `n` a node, `who` the requester,
`v` the value written. -/
inductive Instr where
  /-- R8: A 32-bit read of a pair's low word returns it and latches the high word into the requester's shadow. -/
  | cfgLowWordRead (who : Requester) (n : Node) (off : CfgOff)
  /-- R8: A 32-bit read of a pair's high word returns the shadow and empties it, or the live value when the shadow is empty. -/
  | cfgHighWordRead (who : Requester) (n : Node) (off : CfgOff)
  /-- R9: A 32-bit write of a pair's low word is held for its requester, replacing any other requester's held write. -/
  | cfgLowWordWrite (who : Requester) (n : Node) (off : CfgOff) (v : Word32)
  /-- R9: A 32-bit write of a pair's high word commits both halves in one step. -/
  | cfgHighWordWrite (who : Requester) (n : Node) (off : CfgOff) (v : Word32)
  /-- R7: A single aligned 64-bit access to a pair is performed atomically and discards any held low write. -/
  | cfgPairAccess64 (who : Requester) (n : Node) (off : CfgOff) (v : Option Word64)
  /-- R14: A write to a W1C register clears each bit written as 1. -/
  | w1cWrite (who : Requester) (n : Node) (off : CfgOff) (v : Word32)
  /-- R3: A write to a register field that has no row of its own takes effect under its access code. -/
  | registerWrite (who : Requester) (n : Node) (off : CfgOff) (width : Nat) (v : Word64)
  /-- R6: A read of an unassigned config offset returns zero, and a write to one is ignored. -/
  | unassignedOffsetAccess (who : Requester) (n : Node) (off : CfgOff) (v : Option Word32)
  /-- R16: A block reset loads reset values, discards held low writes and empties the shadows. -/
  | blockReset (n : Node) (b : Block)
  /-- R36: The tick generator reaches a boundary: the count advances, the fraction accumulator is updated and the settle window opens. -/
  | bellBoundary (n : Node)
  /-- R79: Settle step 1 stops the items still running and carries or rolls them back by twin mode. -/
  | settleStop (sl : SledId)
  /-- R82: Settle step 2 writes staged fault records to each tenant's ring. -/
  | flogFlush (sl : SledId)
  /-- R86: Settle step 3 copies each LED_CUR to LED_LAST, adds it to LED_TOTAL and clears LED_CUR. -/
  | ledgerCommit (sl : SledId)
  /-- R386: Settle step 4 writes back protected lines, then sends Standby pages or compares Mirror digests, then checkpoints. -/
  | twinSettle (sl : SledId)
  /-- R76: Settle step 5 applies tenant switches, refills budgets and re-admits carried items, aged heads, then one pass. -/
  | gateSettleAdmit (sl : SledId)
  /-- R39: Step 5 starts at once when it has not begun 2,000 ns before the end of settle. -/
  | settleStep5Force (sl : SledId)
  /-- R37: The settle window ends and the work window opens. -/
  | workWindowOpen (sl : SledId)
  /-- R45: A rising BELL_IN edge is accepted as a boundary instant or rejected and counted. -/
  | bellInEdge (b : RfId)
  /-- R54: With no accepted edge for 2 periods plus 1 ms, the Bell falls back to the internal source. -/
  | bellLost (b : RfId)
  /-- R509: A PTP message is received, time-stamped and fed to the servo. -/
  | ptpMessageRx (b : RfId) (m : PtpMsg)
  /-- R57: The Announce receipt timeout expires, or the offset stays out of range, and an active PTP source hands over. -/
  | ptpLost (b : RfId)
  /-- R56: Slewing unfinished after 100 ticks disarms the source and hands over. -/
  | bellUnlock (b : RfId)
  /-- R47: A sled receives the Bell message, corrects it by its path delay and updates its lease. -/
  | bellMessage (sl : SledId) (m : BellMsg)
  /-- R31: With no Bell for 2 periods plus 1 ms, the sled finishes its window, settles and reports NO_SERVICE. -/
  | bellAbsentTimeout (sl : SledId)
  /-- R49: A write to BEL_PERIOD_NEXT sets PCHG_PEND. -/
  | belPeriodNextWrite (who : Requester) (n : Node) (v : Word32)
  /-- R49: A write to BEL_FRAC_NEXT sets PCHG_PEND. -/
  | belFracNextWrite (who : Requester) (n : Node) (v : Word32)
  /-- R50: Writing 1 to REARM_PTP re-arms PTP and clears its history. -/
  | rearmPtp (who : Requester) (n : Node)
  /-- R50: Writing 1 to REARM_IN re-arms BELL_IN and clears its reject and timeout history. -/
  | rearmIn (who : Requester) (n : Node)
  /-- R62: Clearing EN_PTP or EN_IN on the active source hands over at the next boundary. -/
  | belSrcEnWrite (who : Requester) (n : Node) (v : Word32)
  /-- R65: A new PTP alignment origin takes effect at the next boundary. -/
  | belAlignWrite (who : Requester) (n : Node) (v : Word64)
  /-- R53: A change of DOMAIN or HYBRID takes effect at once, and PTP qualifies afresh. -/
  | belPtpWrite (who : Requester) (n : Node) (v : Word32)
  /-- R67: A TNT_CTL write sets enable, twin mode or GATE_HOLD for the next boundary. -/
  | tntCtlWrite (who : Requester) (sl : SledId) (t : TenantId) (v : Word32)
  /-- R68: An allotment write is accepted, or refused with ALLOT_REFUSED when it breaks the sums or ranges. -/
  | tntAllotWrite (who : Requester) (sl : SledId) (t : TenantId) (v : Word32)
  /-- R92: A fault-log base write is accepted when 4 KiB aligned, and otherwise sets FLOG_BAD. -/
  | tntFlogBaseWrite (who : Requester) (sl : SledId) (t : TenantId) (v : Word64)
  /-- R88: Writing GO starts a tenant reset, at once or at the next boundary for Mirror. -/
  | tntResetGo (who : Requester) (sl : SledId) (t : TenantId)
  /-- R88: The tenant reset finishes and RESET_BUSY clears. -/
  | tenantResetDone (sl : SledId) (t : TenantId)
  /-- R102: A queue control write enables, disables or reconfigures a queue, or sets CFG_BAD. -/
  | tntQCtlWrite (who : Requester) (sl : SledId) (t : TenantId) (q : QueueId) (v : Word32)
  /-- R85: Writing RESUME clears STALL_FAULT and resumes a stalled queue. -/
  | qResume (who : Requester) (sl : SledId) (t : TenantId) (q : QueueId)
  /-- R70: A TAIL store reaches the Gate and is accepted, or refused when it overruns the ring. -/
  | queueTailStore (sl : SledId) (t : TenantId) (q : QueueId)
  /-- R72: A NOP entry completes at admission with no charge. -/
  | entryNop (sl : SledId) (t : TenantId) (q : QueueId)
  /-- R242: A THREAD entry makes the Gate perform a READY and post a GATE event. -/
  | threadEntry (sl : SledId) (t : TenantId) (q : QueueId)
  /-- R72: A MARKER entry completes when every earlier entry of its queue has completed. -/
  | marker (sl : SledId) (t : TenantId) (q : QueueId)
  /-- R103: A reserved or malformed entry is consumed without work, completes ILLEGAL and is recorded. -/
  | reservedEntryKind (sl : SledId) (t : TenantId) (q : QueueId)
  /-- R73: A completed entry's completion word is written after its memory effects. -/
  | entryCompletion (sl : SledId) (t : TenantId) (q : QueueId) (entry : Word32)
  /-- R87: LED_CUR reaches the toll, the tenant is throttled and a TOLL record is staged. -/
  | tollReached (sl : SledId) (t : TenantId)
  /-- R432: Each 1 µs the measured and modelled energy is shared among tenants and LED_SYS. -/
  | ledgerStep (sl : SledId) (core other : Nat)
  /-- R144: Integer add, scalar or wide. -/
  | add (sl : SledId) (c : CoreId)
  /-- R144: Integer subtract. -/
  | sub (sl : SledId) (c : CoreId)
  /-- R144: Low half of an integer product. -/
  | mul (sl : SledId) (c : CoreId)
  /-- R144: High half of an integer product. -/
  | mulh (sl : SledId) (c : CoreId)
  /-- R118: Integer quotient, with the divide-by-zero rules. -/
  | div (sl : SledId) (c : CoreId)
  /-- R118: Integer remainder, with the divide-by-zero rules. -/
  | rem (sl : SledId) (c : CoreId)
  /-- R144: Bitwise AND. -/
  | and (sl : SledId) (c : CoreId)
  /-- R144: Bitwise OR. -/
  | or (sl : SledId) (c : CoreId)
  /-- R144: Bitwise XOR. -/
  | xor (sl : SledId) (c : CoreId)
  /-- R144: Shift left. -/
  | shl (sl : SledId) (c : CoreId)
  /-- R144: Logical shift right. -/
  | shr (sl : SledId) (c : CoreId)
  /-- R144: Arithmetic shift right. -/
  | sra (sl : SledId) (c : CoreId)
  /-- R144: Integer minimum. -/
  | min (sl : SledId) (c : CoreId)
  /-- R144: Integer maximum. -/
  | max (sl : SledId) (c : CoreId)
  /-- R144: Scalar set if equal. -/
  | seq (sl : SledId) (c : CoreId)
  /-- R144: Scalar set if less. -/
  | slt (sl : SledId) (c : CoreId)
  /-- R144: Scalar set if less or equal. -/
  | sle (sl : SledId) (c : CoreId)
  /-- R144: Count leading zeros. -/
  | clz (sl : SledId) (c : CoreId)
  /-- R144: Population count. -/
  | popc (sl : SledId) (c : CoreId)
  /-- R145: Floating-point add. -/
  | fadd (sl : SledId) (c : CoreId)
  /-- R145: Floating-point subtract. -/
  | fsub (sl : SledId) (c : CoreId)
  /-- R145: Floating-point multiply. -/
  | fmul (sl : SledId) (c : CoreId)
  /-- R145: Fused multiply-add with one rounding. -/
  | ffma (sl : SledId) (c : CoreId)
  /-- R145: Correctly rounded floating-point divide. -/
  | fdiv (sl : SledId) (c : CoreId)
  /-- R145: Correctly rounded square root. -/
  | fsqrt (sl : SledId) (c : CoreId)
  /-- R116: minimumNumber. -/
  | fmin (sl : SledId) (c : CoreId)
  /-- R116: maximumNumber. -/
  | fmax (sl : SledId) (c : CoreId)
  /-- R146: Invert the sign. -/
  | fneg (sl : SledId) (c : CoreId)
  /-- R146: Clear the sign. -/
  | fabs (sl : SledId) (c : CoreId)
  /-- R146: Scalar floating-point equal. -/
  | feq (sl : SledId) (c : CoreId)
  /-- R146: Scalar floating-point less. -/
  | flt (sl : SledId) (c : CoreId)
  /-- R146: Scalar floating-point less or equal. -/
  | fle (sl : SledId) (c : CoreId)
  /-- R157: Scalar type conversion. -/
  | fcvt (sl : SledId) (c : CoreId)
  /-- R147: Load an immediate into a scalar register. -/
  | movi (sl : SledId) (c : CoreId)
  /-- R147: Broadcast a scalar to every wide element. -/
  | wbcast (sl : SledId) (c : CoreId)
  /-- R147: Insert a scalar into one wide element. -/
  | wins (sl : SledId) (c : CoreId)
  /-- R147: Extract one wide element to a scalar. -/
  | wext (sl : SledId) (c : CoreId)
  /-- R147: Copy a predicate to a scalar. -/
  | pmov (sl : SledId) (c : CoreId)
  /-- R147: Copy a scalar to a predicate. -/
  | pset (sl : SledId) (c : CoreId)
  /-- R147: Broadcast an immediate to every wide element. -/
  | wmovi (sl : SledId) (c : CoreId)
  /-- R148: Wide compare equal into a predicate. -/
  | ceq (sl : SledId) (c : CoreId)
  /-- R148: Wide compare not equal. -/
  | cne (sl : SledId) (c : CoreId)
  /-- R148: Wide compare less. -/
  | clt (sl : SledId) (c : CoreId)
  /-- R148: Wide compare less or equal. -/
  | cle (sl : SledId) (c : CoreId)
  /-- R148: Predicate AND. -/
  | pand (sl : SledId) (c : CoreId)
  /-- R148: Predicate OR. -/
  | por (sl : SledId) (c : CoreId)
  /-- R148: Predicate XOR. -/
  | pxor (sl : SledId) (c : CoreId)
  /-- R148: Predicate AND NOT. -/
  | pandn (sl : SledId) (c : CoreId)
  /-- R148: Predicate NOT. -/
  | pnot (sl : SledId) (c : CoreId)
  /-- R149: Branch to an absolute target. -/
  | br (sl : SledId) (c : CoreId)
  /-- R149: Branch to a register plus offset. -/
  | brr (sl : SledId) (c : CoreId)
  /-- R149: Call with a link register. -/
  | call (sl : SledId) (c : CoreId)
  /-- R149: Call through a register with a link register. -/
  | callr (sl : SledId) (c : CoreId)
  /-- R149: Branch if equal. -/
  | beq (sl : SledId) (c : CoreId)
  /-- R149: Branch if not equal. -/
  | bne (sl : SledId) (c : CoreId)
  /-- R149: Branch if less. -/
  | blt (sl : SledId) (c : CoreId)
  /-- R149: Branch if greater or equal. -/
  | bge (sl : SledId) (c : CoreId)
  /-- R149: Branch if any predicate bit is set. -/
  | bany (sl : SledId) (c : CoreId)
  /-- R149: Branch if every predicate bit is set. -/
  | ball (sl : SledId) (c : CoreId)
  /-- R151: Scalar load. -/
  | ld (sl : SledId) (c : CoreId)
  /-- R151: Scalar store. -/
  | st (sl : SledId) (c : CoreId)
  /-- R151: Indexed scalar load. -/
  | ldx (sl : SledId) (c : CoreId)
  /-- R151: Indexed scalar store. -/
  | stx (sl : SledId) (c : CoreId)
  /-- R152: Prefetch a line, dropped silently on any failure. -/
  | pref (sl : SledId) (c : CoreId)
  /-- R153: Atomic swap. -/
  | amoswap (sl : SledId) (c : CoreId)
  /-- R153: Atomic add. -/
  | amoadd (sl : SledId) (c : CoreId)
  /-- R153: Atomic AND. -/
  | amoand (sl : SledId) (c : CoreId)
  /-- R153: Atomic OR. -/
  | amoor (sl : SledId) (c : CoreId)
  /-- R153: Atomic XOR. -/
  | amoxor (sl : SledId) (c : CoreId)
  /-- R153: Atomic minimum. -/
  | amomin (sl : SledId) (c : CoreId)
  /-- R153: Atomic maximum. -/
  | amomax (sl : SledId) (c : CoreId)
  /-- R153: Atomic compare and swap. -/
  | amocas (sl : SledId) (c : CoreId)
  /-- R154: Wide load of 256 bytes. -/
  | wld (sl : SledId) (c : CoreId)
  /-- R154: Wide store of 256 bytes. -/
  | wst (sl : SledId) (c : CoreId)
  /-- R154: Wide gather. -/
  | wldx (sl : SledId) (c : CoreId)
  /-- R155: Wide scatter; the highest element wins on overlap. -/
  | wstx (sl : SledId) (c : CoreId)
  /-- R114: An issued load completes, poisoning its destination on an uncorrectable word. -/
  | loadDataReturn (sl : SledId) (c : CoreId) (i : Nat)
  /-- R157: Wide type conversion with PART placement. -/
  | cvt (sl : SledId) (c : CoreId)
  /-- R156: Wide lane permute. -/
  | wperm (sl : SledId) (c : CoreId)
  /-- R156: Wide lane rotate. -/
  | wrot (sl : SledId) (c : CoreId)
  /-- R156: Per-lane select by predicate. -/
  | wsel (sl : SledId) (c : CoreId)
  /-- R158: Sum of the active elements to a scalar. -/
  | wredadd (sl : SledId) (c : CoreId)
  /-- R158: Least active element to a scalar. -/
  | wredmin (sl : SledId) (c : CoreId)
  /-- R158: Greatest active element to a scalar. -/
  | wredmax (sl : SledId) (c : CoreId)
  /-- R159: Matrix multiply-accumulate into a tile. -/
  | mma (sl : SledId) (c : CoreId)
  /-- R159: Mixed-FP8 matrix multiply-accumulate. -/
  | mmax (sl : SledId) (c : CoreId)
  /-- R159: Matrix multiply into a tile, no accumulate. -/
  | mmaz (sl : SledId) (c : CoreId)
  /-- R160: Zero a tile. -/
  | tzero (sl : SledId) (c : CoreId)
  /-- R160: Load a 1 KiB tile. -/
  | tld (sl : SledId) (c : CoreId)
  /-- R160: Store a 1 KiB tile. -/
  | tst (sl : SledId) (c : CoreId)
  /-- R159: Read four tile rows into a wide register. -/
  | trd (sl : SledId) (c : CoreId)
  /-- R159: Write four tile rows from a wide register. -/
  | twr (sl : SledId) (c : CoreId)
  /-- R122: Wait until every older memory access is performed everywhere. -/
  | fence (sl : SledId) (c : CoreId)
  /-- R124: Fence, then discard fetched instructions and refetch. -/
  | ifence (sl : SledId) (c : CoreId)
  /-- R161: Write back the dirty lines of a range. -/
  | cflush (sl : SledId) (c : CoreId)
  /-- R161: Discard the lines of a range. -/
  | cinval (sl : SledId) (c : CoreId)
  /-- R165: End or park the thread and wait for dispatch from the masked channels. -/
  | waitwork (sl : SledId) (c : CoreId)
  /-- R246: Create or wake the thread named by a TCB and return a status. -/
  | ready (sl : SledId) (c : CoreId)
  /-- R167: Save, re-enqueue and dispatch. -/
  | yield (sl : SledId) (c : CoreId)
  /-- R168: Block the thread until a Bell count's work window. -/
  | bellwait (sl : SledId) (c : CoreId)
  /-- R171: Submit ray records to an engine, all or nothing. -/
  | tesubmit (sl : SledId) (c : CoreId)
  /-- R279: Resume a suspended ray with a verdict. -/
  | teresume (sl : SledId) (c : CoreId)
  /-- R171: Submit probe records to an engine, all or nothing. -/
  | probesub (sl : SledId) (c : CoreId)
  /-- R171: Launch a kernel on a range of Depots, all or nothing. -/
  | deplaunch (sl : SledId) (c : CoreId)
  /-- R173: No operation. -/
  | nop (sl : SledId) (c : CoreId)
  /-- R131: Read a control register. -/
  | crrd (sl : SledId) (c : CoreId)
  /-- R174: Write a control register. -/
  | crwr (sl : SledId) (c : CoreId)
  /-- R173: Trap with cause 0x20. -/
  | trap (sl : SledId) (c : CoreId)
  /-- R173: Trap with cause 0x21. -/
  | brk (sl : SledId) (c : CoreId)
  /-- R126: Return from a trap. -/
  | tret (sl : SledId) (c : CoreId)
  /-- R129: After in-flight operations complete, a pre-empted thread's context is saved. -/
  | schedInterrupt (sl : SledId) (c : CoreId)
  /-- R129: After 2 µs of SM deferral, SCHED is taken anyway with SMFORCED set. -/
  | smDeferTimeout (sl : SledId) (c : CoreId)
  /-- R234: An idle core takes the first eligible thread of its effective mask. -/
  | dispatch (sl : SledId) (c : CoreId)
  /-- R239: A unit posts an event that updates the TCB and wakes or flags the thread. -/
  | schedEvent (sl : SledId) (t : TenantId) (kind : Fin 8) (handle : Word32)
  /-- R247: A channel configuration write is applied, or partly refused with CFG_BAD. -/
  | schChCfgWrite (who : Requester) (sl : SledId) (d : DieId) (ch : Fin 8) (v : Word32)
  /-- R197: Invalidate the selected translation entries of a tenant. -/
  | tlbiCmd (who : Requester) (sl : SledId) (v : Word32)
  /-- R197: Reading MMU_TLBI_SYNC completes after earlier invalidations and walks finish. -/
  | tlbiSyncRead (who : Requester) (sl : SledId)
  /-- R200: A region entry write starts a conversion, or is refused with ENTRY_BAD. -/
  | regEntryWrite (who : Requester) (sl : SledId) (i : Fin 1024) (v : Word64)
  /-- R201: A Local-Raw or Local-ECC conversion ends and BUSY clears. -/
  | regionConversionDone (sl : SledId) (i : Fin 1024)
  /-- R206: The scrubber reads and corrects the next words of ECC memory. -/
  | patrolScrub (sl : SledId) (words : Nat)
  /-- R208: A remote load request is served at the target. -/
  | rdReq (src : SledId) (dst : SledId)
  /-- R208: A remote load response completes the load. -/
  | rdRsp (src : SledId) (dst : SledId)
  /-- R208: A remote store is performed at the target. -/
  | wr (src : SledId) (dst : SledId)
  /-- R208: A remote store acknowledgment lets FENCE proceed. -/
  | wrAck (src : SledId) (dst : SledId)
  /-- R225: A remote atomic is performed at the target. -/
  | amo (src : SledId) (dst : SledId)
  /-- R153: A remote atomic response completes the atomic. -/
  | amoRsp (src : SledId) (dst : SledId)
  /-- R209: A remote access without a response in 100 µs fails, poisoning or discarding. -/
  | remoteAccessTimeout (sl : SledId) (c : CoreId) (i : Nat)
  /-- R210: A Porter COPY entry starts: translate and check, choose a path, copy with memmove semantics. -/
  | porterCopy (sl : SledId) (d : DieId)
  /-- R213: A Porter FILL entry writes the pattern to a rectangle. -/
  | porterFill (sl : SledId) (d : DieId)
  /-- R216: A Porter entry finishes and its completion word is written. -/
  | porterComplete (sl : SledId) (d : DieId)
  /-- R214: A Porter enable write is accepted, or sets CFG_BAD when scratch is too small. -/
  | prtCtlWrite (who : Requester) (sl : SledId) (d : DieId) (v : Word32)
  /-- R284: A TE_BATCH entry submits rays to an engine. -/
  | teBatch (sl : SledId) (t : TenantId) (q : QueueId)
  /-- R272: The engine dispatches the largest caravan, or one whose oldest ray waited MAX_WAIT, for one node step. -/
  | caravanDispatch (sl : SledId) (e : EngineId)
  /-- R277: A ray suspends and writes a callback record when ring room allows. -/
  | callbackPost (sl : SledId) (e : EngineId) (slot : Fin 65536)
  /-- R274: An ended ray's hit record is written when the ring has room. -/
  | hitRecordWrite (sl : SledId) (e : EngineId) (slot : Fin 65536)
  /-- R258: A released engine's pool empties and the engine becomes free. -/
  | engineDrainDone (sl : SledId) (e : EngineId)
  /-- R285: A hit-queue control write is applied, or refused with CFG_BAD. -/
  | teHqCtlWrite (who : Requester) (sl : SledId) (e : EngineId) (h : RingId) (v : Word32)
  /-- R287: Writing RESUME clears a hit queue's STALL_FAULT. -/
  | teHqResume (who : Requester) (sl : SledId) (e : EngineId) (h : RingId)
  /-- R309: A PROBE_BATCH entry submits probes to an engine. -/
  | probeBatch (sl : SledId) (t : TenantId) (q : QueueId)
  /-- R306: An ended probe writes its candidate list and result record when the ring has room. -/
  | probeResultWrite (sl : SledId) (e : EngineId) (slot : Fin 65536)
  /-- R310: A result-queue control write is applied, or refused with CFG_BAD. -/
  | prbRqCtlWrite (who : Requester) (sl : SledId) (e : EngineId) (h : RingId) (v : Word32)
  /-- R310: Writing RESUME clears a result queue's STALL_FAULT. -/
  | prbRqResume (who : Requester) (sl : SledId) (e : EngineId) (h : RingId)
  /-- R334: A RASTER CLEAR sets clear flags or writes clear values on selected surfaces. -/
  | clear (sl : SledId) (r : DieId)
  /-- R326: A RASTER VIS bins and resolves visibility of the opaque draws. -/
  | vis (sl : SledId) (r : DieId)
  /-- R328: A RASTER FRAG lists the fragments of blend draws into bin memory. -/
  | frag (sl : SledId) (r : DieId)
  /-- R329: A RASTER BLEND blends the fragment list into its targets. -/
  | blend (sl : SledId) (r : DieId)
  /-- R335: A RASTER RESOLVE writes clear values to flagged tiles and clears the flags. -/
  | resolve (sl : SledId) (r : DieId)
  /-- R347: A RASTER PRESENT hands colour target 0 to the compositor output. -/
  | present (sl : SledId) (r : DieId)
  /-- R331: Writing GO lets a paused entry resume with the new BIN_MAPPED. -/
  | rfeGrowGo (who : Requester) (sl : SledId) (t : TenantId) (r : DieId)
  /-- R331: Writing FLUSH resolves or ends the paused entry without more bin memory. -/
  | rfeGrowFlush (who : Requester) (sl : SledId) (t : TenantId) (r : DieId)
  /-- R343: An admitted compositor entry pauses another tenant's entry at its next chunk or tile boundary. -/
  | rfeCmpPreempt (sl : SledId) (r : DieId)
  /-- R344: Granting the compositor context is accepted, or refused with CFG_BAD. -/
  | rfeCmpCtlWrite (who : Requester) (sl : SledId) (v : Word32)
  /-- R346: A presentation stride write is accepted for the next boundary, or refused. -/
  | rfeCmpStrideWrite (who : Requester) (sl : SledId) (v : Word32)
  /-- R345: At a presentation boundary the output takes the latest presented surface or repeats and records LATE. -/
  | presentationBoundary (sl : SledId)
  /-- R368: A DEPOT entry launches a kernel from a queue. -/
  | depotEntry (sl : SledId) (t : TenantId) (q : QueueId)
  /-- R364: The launcher checks a Depot's windows and starts its kernel when its queue reaches it. -/
  | depotKernelStart (sl : SledId) (d : DepotId)
  /-- R357: Depot END ends the kernel with DONE and writes its status entry. -/
  | depEnd (sl : SledId) (d : DepotId)
  /-- R357: Depot load of 32 bytes from a window. -/
  | depLd (sl : SledId) (d : DepotId)
  /-- R357: Depot store of 32 bytes to a window. -/
  | depSt (sl : SledId) (d : DepotId)
  /-- R357: Load 16 BF16 values widened to two vectors. -/
  | ldw (sl : SledId) (d : DepotId)
  /-- R357: Store two vectors narrowed to BF16. -/
  | stn (sl : SledId) (d : DepotId)
  /-- R357: Depot per-lane gather. -/
  | gather (sl : SledId) (d : DepotId)
  /-- R357: Depot per-lane scatter. -/
  | scatter (sl : SledId) (d : DepotId)
  /-- R362: Send a Footpath message, waiting while the inbox is full. -/
  | fsend (sl : SledId) (d : DepotId)
  /-- R362: Receive the oldest matching Footpath message, waiting until one is present. -/
  | frecv (sl : SledId) (d : DepotId)
  /-- R362: A Footpath message arrives in a Depot's inbox. -/
  | footpathMessage (sl : SledId) (d : DepotId)
  /-- R355: Depot per-lane add. -/
  | depAdd (sl : SledId) (d : DepotId)
  /-- R355: Depot per-lane subtract. -/
  | depSub (sl : SledId) (d : DepotId)
  /-- R355: Depot per-lane multiply. -/
  | depMul (sl : SledId) (d : DepotId)
  /-- R355: Depot per-lane fused multiply-add. -/
  | depFma (sl : SledId) (d : DepotId)
  /-- R355: Depot per-lane minimum. -/
  | depMin (sl : SledId) (d : DepotId)
  /-- R355: Depot per-lane maximum. -/
  | depMax (sl : SledId) (d : DepotId)
  /-- R355: Depot compare equal. -/
  | cmpeq (sl : SledId) (d : DepotId)
  /-- R355: Depot compare less. -/
  | cmplt (sl : SledId) (d : DepotId)
  /-- R355: Depot compare less or equal. -/
  | cmple (sl : SledId) (d : DepotId)
  /-- R357: Depot per-lane select. -/
  | sel (sl : SledId) (d : DepotId)
  /-- R357: Depot sum of eight lanes. -/
  | redadd (sl : SledId) (d : DepotId)
  /-- R357: Depot minimum of eight lanes. -/
  | redmin (sl : SledId) (d : DepotId)
  /-- R357: Depot maximum of eight lanes. -/
  | redmax (sl : SledId) (d : DepotId)
  /-- R357: Depot scalar to every lane. -/
  | splat (sl : SledId) (d : DepotId)
  /-- R357: Depot lane to scalar. -/
  | mova (sl : SledId) (d : DepotId)
  /-- R357: Depot scalar into a lane. -/
  | vins (sl : SledId) (d : DepotId)
  /-- R360: Box union. -/
  | boxu (sl : SledId) (d : DepotId)
  /-- R360: Box of one triangle of a leaf block. -/
  | tribox (sl : SledId) (d : DepotId)
  /-- R360: Node header from a box. -/
  | nhdr (sl : SledId) (d : DepotId)
  /-- R360: Quantize a child box into a node image. -/
  | qchild (sl : SledId) (d : DepotId)
  /-- R359: Adam optimizer step on eight parameters. -/
  | adam (sl : SledId) (d : DepotId)
  /-- R361: CRC-32C update over 32 bytes. -/
  | crc (sl : SledId) (d : DepotId)
  /-- R357: Depot scalar immediate. -/
  | depMovi (sl : SledId) (d : DepotId)
  /-- R357: Depot scalar add immediate. -/
  | addi (sl : SledId) (d : DepotId)
  /-- R357: Depot scalar AND immediate. -/
  | andi (sl : SledId) (d : DepotId)
  /-- R357: Depot scalar shift left. -/
  | shli (sl : SledId) (d : DepotId)
  /-- R357: Depot scalar shift right. -/
  | shri (sl : SledId) (d : DepotId)
  /-- R357: Depot scalar add. -/
  | adda (sl : SledId) (d : DepotId)
  /-- R357: Depot branch. -/
  | depBr (sl : SledId) (d : DepotId)
  /-- R357: Depot branch if zero. -/
  | bz (sl : SledId) (d : DepotId)
  /-- R357: Depot branch if nonzero. -/
  | bnz (sl : SledId) (d : DepotId)
  /-- R357: Depot decrement and loop. -/
  | depLoop (sl : SledId) (d : DepotId)
  /-- R373: A kernel that retires nothing for 1,000 µs ends with STALLED. -/
  | depotStallTimeout (sl : SledId) (d : DepotId)
  /-- R381: An idle Tether end sends a heartbeat every 10 µs. -/
  | heartbeat (sl : SledId)
  /-- R381: With no valid frame for 100 µs the link enters DOWN. -/
  | tetherLinkTimeout (sl : SledId)
  /-- R382: A lane lost while UP sends the link to DEGRADED. -/
  | tetherLaneLoss (sl : SledId) (lanes : Nat)
  /-- R381: Training ends in UP, DEGRADED or FAILED. -/
  | tetherTrainingDone (sl : SledId) (lanes : Nat)
  /-- R381: Writing RETRAIN starts training from any state. -/
  | tetherRetrain (who : Requester) (sl : SledId)
  /-- R387: The twin journals a Standby page and writes it into the replica. -/
  | page (sl : SledId)
  /-- R385: A tenant control snapshot arrives at the twin. -/
  | snap (sl : SledId)
  /-- R387: COMMIT completes a Standby send and drops the journal. -/
  | commit (sl : SledId)
  /-- R393: A Mirror digest frame with overrun set and TWN_HWERR count arrives. -/
  | digest (sl : SledId)
  /-- R406: A re-pairing copy frame writes protected-range data at the twin. -/
  | resilver (sl : SledId)
  /-- R383: A frame of a reserved TYPE is discarded and counted. -/
  | reservedFrame (sl : SledId) (type : BitVec 8)
  /-- R398: The Rack Factor receives a sled's settle acknowledgment. -/
  | ack (sl : SledId)
  /-- R398: A missing ACK 100 µs after a boundary queues a Courier PING. -/
  | ackTimeout (sl : SledId)
  /-- R398: A sled without a PONG is declared LOST, isolated and its lease moved. -/
  | sledLost (sl : SledId)
  /-- R399: A sled ending under Stop reports DYING and is treated as LOST. -/
  | dying (sl : SledId)
  /-- R448: A management event frame is received on the Route fabric. -/
  | mgmtEvent (n : Node)
  /-- R402: A JOIN is decided under Table 12.7 into QUARANTINE or SYNCING. -/
  | join (sl : SledId) (b : RfId)
  /-- R412: A pushed configuration is applied at the next epoch boundary. -/
  | cfg (sl : SledId)
  /-- R395: A lease not renewed in 4 ticks runs out and protected tenants are fenced. -/
  | leaseExpiry (sl : SledId)
  /-- R403: After two missed state copies and no answer, the standby Rack Factor becomes active. -/
  | rfTakeover (b : RfId)
  /-- R405: TWN_RK_CTL.DRAIN moves a sled to DRAINING. -/
  | drain (who : Requester) (sl : SledId)
  /-- R397: TWN_RK_CTL.ISOLATE isolates a sled's Route fabric port. -/
  | isolate (who : Requester) (sl : SledId)
  /-- R413: TWN_RK_CTL.RELEASE undoes isolation so the sled may rejoin. -/
  | release (who : Requester) (sl : SledId)
  /-- R402: TWN_RK_CTL.PUSH_CFG pushes the configuration to a sled. -/
  | pushCfg (who : Requester) (sl : SledId)
  /-- R407: A protected-range write is applied, or ignored when it overlaps or exceeds memory. -/
  | twnRangeWrite (who : Requester) (sl : SledId) (i : Fin 256) (v : Word64)
  /-- R418: Each 1 µs the Sled Factor samples its rails and updates stages. -/
  | railSample (sl : SledId) (vin : Nat) (v12 : Nat) (vpp : Nat)
  /-- R423: A comparator trip stops the sled at once without settle work. -/
  | immediateStop (sl : SledId) (vin : Nat) (v12 : Nat)
  /-- R424: After 100 ms of good input a stopped sled boots again. -/
  | powerRestore (sl : SledId)
  /-- R425: Every 10 µs the core clock steps toward its target, raising CAP when lowered. -/
  | clockStep (sl : SledId) (powerMax : Nat) (thermalMax : Nat)
  /-- R426: A non-volatile write is started, or refused under Guard. -/
  | nvWriteRequest (sl : SledId) (w : NvWrite)
  /-- R418: Writing CLRMIN loads PWR_VIN_MIN with PWR_VIN. -/
  | clrmin (who : Requester) (sl : SledId)
  /-- R445: A received character enters the RX FIFO with its flags. -/
  | consoleRxCharacter (n : Node) (samples : List Bool)
  /-- R446: The line returns high after a break and one break entry is stored. -/
  | rxBreak (n : Node) (bits : Nat)
  /-- R447: A low period beyond 65,535 bit times sets LINE_DEAD and is reported. -/
  | lineDeadOn (n : Node) (line : SerialLine)
  /-- R447: Sixteen bit times of high line clear LINE_DEAD. -/
  | lineDeadOff (n : Node) (line : SerialLine)
  /-- R453: A start edge on a sleeping receiver wakes the Factor and loses that character. -/
  | wake (n : Node) (line : SerialLine)
  /-- R449: A character is queued, or refused when the TX FIFO is full. -/
  | cslTxdataWrite (who : Requester) (n : Node) (v : Word32)
  /-- R451: The transmitter starts the next character when CTS allows. -/
  | txCharacterStart (n : Node) (cts : Bool)
  /-- R445: Reading CSL_RXDATA pops one RX FIFO entry. -/
  | cslRxdataRead (who : Requester) (n : Node)
  /-- R452: After the current character, a break of BRKLEN bit times is sent. -/
  | sendBrk (who : Requester) (n : Node)
  /-- R445: RXFLUSH empties the RX FIFO. -/
  | rxflush (who : Requester) (n : Node)
  /-- R449: TXFLUSH empties the TX FIFO. -/
  | txflush (who : Requester) (n : Node)
  /-- R462: A format write takes effect at the next character, or sets CFG_BAD. -/
  | cslFmtWrite (who : Requester) (n : Node) (v : Word32)
  /-- R462: A divisor write takes effect at the next character, or sets CFG_BAD. -/
  | cslDivWrite (who : Requester) (n : Node) (v : Word32)
  /-- R469: An RTS threshold write updates RTS at once, or sets CFG_BAD. -/
  | cslRtsWrite (who : Requester) (n : Node) (v : Word32)
  /-- R454: CUR_CTL.SEND queues the frame in CUR_TXBUF. -/
  | send (who : Requester) (n : Node)
  /-- R454: After the idle and backoff wait, a node sends its frame with read-back. -/
  | courierFrameStart (n : Node) (readback : Readback)
  /-- R457: A received Courier frame is checked and delivered or discarded. -/
  | courierFrameRx (n : Node) (chars : List (List Bool))
  /-- R458: A unicast PING is answered with a PONG by hardware. -/
  | ping (n : Node) (f : CourierFrame)
  /-- R458: A PONG reply to a PING is received. -/
  | pong (n : Node) (f : CourierFrame)
  /-- R458: A Courier EVENT is stored and acknowledged when a buffer is free. -/
  | courierEvent (n : Node) (f : CourierFrame)
  /-- R459: An ACK echoing the sent SEQ completes a unicast EVENT. -/
  | courierAck (n : Node) (f : CourierFrame)
  /-- R459: An EVENT without an ACK in 40 bit times is resent, up to 8 times. -/
  | courierEventResend (n : Node)
  /-- R455: Writing DRIVE_CLR clears DRIVE_FAIL. -/
  | driveClr (who : Requester) (n : Node)
  /-- R457: Reading the last word of an RX buffer marks it free. -/
  | curRxbufRead (who : Requester) (n : Node) (buf : Fin 4)
  /-- R461: The Rack Factor opens switches and closes them one by one to isolate a sled holding the line low. -/
  | courierIsolationSearch (b : RfId) (holds : BitVec 16) (rackLow : Bool)
  /-- R461: Writing 0 to a sled's bit closes its isolation switch. -/
  | curRkIsoWrite (who : Requester) (b : RfId) (v : Word32)
  /-- R471: 12 V good starts the sled sequence from fuses through JOIN. -/
  | sledPowerOn (sl : SledId) (t : SelfTest)
  /-- R472: JOIN is resent every 10 ms until the Rack Factor answers. -/
  | joinResend (sl : SledId)
  /-- R473: A booted Rack Factor with no active peer in 10 ms becomes active. -/
  | rackFactorBoot (b : RfId)
  /-- R473: The first boundary is held until every sled joins or 2 s pass. -/
  | firstBell
  /-- R476: An image received in RECOVERY is written to slot B and the sled restarts. -/
  | recoveryImage (sl : SledId) (image : List Byte)
  /-- R479: FUS_PROG.SEND blows and verifies the masked bits, or is refused. -/
  | fuseProgram (who : Requester) (sl : SledId)
  /-- R479: After Guard is left, an interrupted fuse request resumes by itself. -/
  | fuseResume (sl : SledId)
  /-- R503: A received Ethernet frame is stored through an RX descriptor, or dropped and counted. -/
  | dataPortRxFrame (p : Fin 8) (frame : List Byte) (fcsOk : Bool)
  /-- R502: The port sends the frame of the next TX descriptor. -/
  | dataPortTxFrame (p : Fin 8)
  /-- R503: Writing RESUME restarts a stalled data-port ring. -/
  | dataPortResume (who : Requester) (p : Fin 8)
  /-- R507: The next ST 2110-20 packet leaves at its paced time. -/
  | videoPacketSend (p : Fin 4)
  /-- R499: An ARP request for the video port's address is answered. -/
  | videoArpRequest (p : Fin 4) (ip : Word32)
  /-- R513: A video port control write is applied, or refused with CFG_BAD. -/
  | rfeVidCtlWrite (who : Requester) (p : Fin 4) (v : Word32)
  /-- R513: A video raster write is applied, or refused while EN = 1. -/
  | rfeVidRasterWrite (who : Requester) (p : Fin 4) (v : Word32)
  /-- R511: TAP BYPASS instruction. -/
  | bypass (sl : SledId)
  /-- R511: TAP SAMPLE instruction. -/
  | sample (sl : SledId)
  /-- R511: TAP PRELOAD instruction. -/
  | preload (sl : SledId) (cells : List Bool)
  /-- R511: TAP EXTEST instruction. -/
  | extest (sl : SledId)
  /-- R511: TAP IDCODE instruction. -/
  | idcode (sl : SledId)
  /-- R480: A Molsal private TAP instruction halts a core or accesses memory while debug is open. -/
  | tapPrivate (sl : SledId) (op : TapOp)
  /-- R141: A core executes an instruction word whose OP, or OP and FN, is reserved or undefined, and raises ILLEGAL. -/
  | reservedOpcode (sl : SledId) (c : CoreId)
  /-- R114: An instruction fetch fails translation or execute permission, or reads an uncorrectable word, and raises XLATE, PERM or DATA_POISON with EPC and EADDR at the fetched address. -/
  | fetchFault (sl : SledId) (c : CoreId)
  /-- R356: A Depot reaches a reserved OPC, a bad field, or runs past its last instruction, and ends its kernel with ILLEGAL. -/
  | depIllegal (sl : SledId) (d : DepotId)
  /-- R303: An engine pops a probe's stack entry and tests a node or processes a point leaf, updating H, B and TRUNC. -/
  | probeNodeVisit (sl : SledId) (e : EngineId) (slot : Fin 65536)
  /-- R403: The standby Rack Factor receives the active Rack Factor's state copy at a settle. -/
  | rfStateCopy (b : RfId)
  /-- R30: The standby Rack Factor fails, and the active one reports RACK_SIMPLEX and sets SIMPLEX. -/
  | rackSimplex
  /-- R457: More than 4 bit times pass after a character of a Courier frame, and the receiver discards the partial frame and advances CUR_BAD_FRAMES. -/
  | courierCharGap (n : Node)
  /-- R514: A video port's Ethernet link goes down or comes up, and LINK changes, so frames are counted without being sent or are sent again. -/
  | videoLinkChange (p : Fin 4) (up : Bool)
deriving DecidableEq, Repr

end Sys2Proof
end

