-- ==== Sys2Proof/Machine/Map.lean ====
section
/-! DEFINITION. Sparse tables: what a key holds, and storing at a key. Every table of State is read and written through these. -/
namespace Sys2Proof.Machine

/-- What table `m` holds for key `k`, where an unlisted key holds `d`. -/
def mgetD {α : Type} (d : α) : Map α → Nat → α
  | [], _ => d
  | (j, v) :: m, k => if j = k then v else mgetD d m k

/-- Table `m` without the entries of key `k`. -/
def mdrop {α : Type} (k : Nat) : Map α → Map α
  | [] => []
  | (j, v) :: m => if j = k then mdrop k m else (j, v) :: mdrop k m

/-- Put an entry in its place among rising keys. -/
def mins {α : Type} (k : Nat) (v : α) : Map α → Map α
  | [] => [(k, v)]
  | (j, w) :: m => if k < j then (k, v) :: (j, w) :: m else (j, w) :: mins k v m

/-- Store `v` at `k`; storing what an unlisted key holds removes the entry. -/
def msetD {α : Type} [DecidableEq α] (d : α) (m : Map α) (k : Nat) (v : α) : Map α :=
  if v = d then mdrop k m else mins k v (mdrop k m)

/-- `mgetD` where an unlisted key holds the type's reset value. -/
def mget {α : Type} [Inhabited α] (m : Map α) (k : Nat) : α := mgetD default m k

/-- `msetD` where an unlisted key holds the type's reset value. -/
def mset {α : Type} [Inhabited α] [DecidableEq α] (m : Map α) (k : Nat) (v : α) : Map α := msetD default m k v

/-- Change what key `k` holds. -/
def mmod {α : Type} [Inhabited α] [DecidableEq α] (m : Map α) (k : Nat) (f : α → α) : Map α := mset m k (f (mget m k))

/-- Keys strictly rise and no entry holds the unlisted value: the one canonical form of a table. -/
def mwfD {α : Type} [DecidableEq α] (d : α) : Map α → Bool
  | [] => true
  | [(_, v)] => decide (v ≠ d)
  | (j, v) :: (k, w) :: m => decide (v ≠ d) && decide (j < k) && mwfD d ((k, w) :: m)

/-- A table of State is in canonical form. -/
abbrev Map.wf {α : Type} [Inhabited α] [DecidableEq α] (m : Map α) : Prop := mwfD default m = true
/-- A sled's cells are in canonical form: offsets strictly rise, and no entry holds zero, what an unlisted offset reads as. -/
abbrev Memory.wf (m : Map Byte) : Prop := Map.wf m

end Sys2Proof.Machine
end

