-- ==== Sys2Proof/Machine/Regs.lean ====
section
/-! DEFINITION. The registers of config space: where each one is, its width, and which bits software reads, writes and clears (R3, Table 0.3 and the register tables of every chapter). -/
namespace Sys2Proof.Machine

/-- The registers of a sled's config space and of a Rack Factor's management space. -/
inductive Reg where
  | vendor | part | stepping | sled | service | manifest | belCount | belTime | belTickStart | belPeriod |
  belFrac | belPeriodNext | belFracNext | belSettle | belTickLen | belSrcCtl | belStatus | belPhaseErr |
  belRejects | belEvent | belEventEn | belAlign | belSkew | belPathDelay | belPtp | tntCtl | tntStatus |
  tntPtroot | tntAllot | tntFlogBase | tntFlogHead | tntFlogTail | tntFlogLost | tntTeNode | tntReset |
  gteBudget | gteRemain | gteAdmitted | ledCur | ledLast | ledTotal | ledToll | ledTollCtl | ledStatus |
  tntQBase | tntQHdr | tntQCtl | tntQStatus | tntEnabled | ledSys | ledPkg | schCtl | schStatus | schRefused |
  schStray | schPreempts | schChCfg | schChStatus | schCore | schTlimit | schTrun | schQnotify | mmuCeCount |
  mmuUeCount | mmuUePa | mmuRemoteFail | mmuWalkLast | mmuWalkLastReason | mmuTlbiVa | mmuTlbiCmd | mmuTlbiSync
  | regSplit | regStatus | regScrub | regCtl | regEntry | prtCtl | prtStatus | prtScratchBase | prtScratchSize |
  prtBytes | prtStaged | prtPoison | teCtl | teStatus | teCaravan | tePoolUsed | tePoolSusp | teRaysIn |
  teRaysOut | teVisits | teTritests | teCaravans | teNcMiss | teCallbacks | teStat | teHqBase | teHqHdr |
  teHqCbBase | teHqCbHdr | teHqCtl | teHqStatus | teHqHandle | teHqCbHandle | teHqThresh | prbProbesIn |
  prbProbesOut | prbVisits | prbCands | prbTrunc | prbStat | prbRqBase | prbRqHdr | prbRqCtl | prbRqStatus |
  prbRqHandle | prbRqThresh | rfeCtl | rfeStatus | rfePrims | rfeSamples | rfeDiscard | rfePreempts | rfeFlushes
  | rfeResMiss | rfeTime | rfeCmpCtl | rfeCmpStatus | rfeCmpStride | rfeCmpLate | rfeCmpSurf | rfeGrowNeed |
  rfeGrowCtl | rfeGrowHandle | depStatus | depInstr | depBytes | depStalls | depEn | depStray | depFootMsgs |
  depFootWaits | twnLinkCtl | twnLinkStatus | twnState | twnEvent | twnEventEn | twnHwerr | twnRetry |
  twnTxBytes | twnRxBytes | twnJournalBase | twnJournalSize | twnUndoBase | twnUndoSize | twnKey | twnT |
  twnRange | pwrStatus | pwrEvent | pwrEventEn | pwrCtl | pwrVin | pwrV12 | pwrVpp | pwrVinMin | pwrClk | pwrPkg
  | pwrNvRefused | pwrTj | pwrWarnTicks | pwrLedExcess | pwrCoef | pwrStatic | cslCtl | cslFmt | cslDiv |
  cslBrklen | cslRts | cslStatus | cslEvent | cslEventEn | cslRxdata | cslTxdata | cslOverruns | cslTxref |
  cslWakeLost | curCtl | curDiv | curStatus | curEvent | curEventEn | curHealth | curCollisions | curBadFrames |
  curTxAbort | curWakeLost | curTxbuf | curRxbuf | fusRow | fusProg | fusProgMask | fusProgStatus | fusBoot |
  fusDebug | twnRkSled | twnRkLease | twnRkRole | twnRkCtl | twnRkCfgDigest | twnRkDpCtl | twnRkDpRx |
  twnRkDpRxHdr | twnRkDpTx | twnRkDpTxHdr | dpRxDrop | dpTx | rfeVidCtl | rfeVidRaster | rfeVidStatus |
  rfeVidRtp | rfeVidSrcIp | rfeVidDstIp | rfeVidUdp | rfeVidSsrc | rfeVidDstMac | rfeVidFrames | curRkIso
deriving DecidableEq, Repr

/-- Where a register stands and how it is accessed: register (i, j) is at `base + i * s0 + j * s1`, for i below `n0` and j below `n1`.
`rw` masks the bits a write sets, `w1c` those a 1 clears, `rd` those a read returns. -/
structure RegInfo where
  base : Nat
  wide : Bool
  rw : Nat
  w1c : Nat
  rd : Nat
  reset : Nat
  s0 : Nat := 0x4000000
  n0 : Nat := 1
  s1 : Nat := 0x4000000
  n1 : Nat := 1
  sled : Bool := true
  rack : Bool := false
deriving DecidableEq, Repr

/-- The register tables of the spec, row by row. -/
def regInfo : Reg → RegInfo
  | .vendor => {base := 0x0, wide := false, rw := 0x0, w1c := 0x0, rd := 0xFFFFFFFF, reset := 0x4D6D}
  | .part => {base := 0x4, wide := false, rw := 0x0, w1c := 0x0, rd := 0xFFFFFFFF, reset := 0x7E01}
  | .stepping => {base := 0x8, wide := false, rw := 0x0, w1c := 0x0, rd := 0xFFFFFFFF, reset := 0x0}
  | .sled => {base := 0xC, wide := false, rw := 0x0, w1c := 0x0, rd := 0x1F, reset := 0x0}
  | .service => {base := 0x10, wide := false, rw := 0x0, w1c := 0x0, rd := 0x3F07, reset := 0x0}
  | .manifest => {base := 0x100, wide := false, rw := 0x0, w1c := 0x0, rd := 0xFFFFFFFF, reset := 0x0, s0 := 0x4, n0 := 256, rack := true}
  | .belCount => {base := 0x100000, wide := true, rw := 0x0, w1c := 0x0, rd := 0xFFFFFFFFFFFFFFFF, reset := 0x0, rack := true}
  | .belTime => {base := 0x100008, wide := true, rw := 0x0, w1c := 0x0, rd := 0xFFFFFFFFFFFFFFFF, reset := 0x0, rack := true}
  | .belTickStart => {base := 0x100010, wide := true, rw := 0x0, w1c := 0x0, rd := 0xFFFFFFFFFFFFFFFF, reset := 0x0, rack := true}
  | .belPeriod => {base := 0x100018, wide := false, rw := 0x0, w1c := 0x0, rd := 0xFFFFFFF, reset := 0x2FAF080, rack := true}
  | .belFrac => {base := 0x10001C, wide := false, rw := 0x0, w1c := 0x0, rd := 0xFFFFFFFF, reset := 0x0, rack := true}
  | .belPeriodNext => {base := 0x100020, wide := false, rw := 0xFFFFFFF, w1c := 0x0, rd := 0xFFFFFFF, reset := 0x2FAF080, rack := true}
  | .belFracNext => {base := 0x100024, wide := false, rw := 0xFFFFFFFF, w1c := 0x0, rd := 0xFFFFFFFF, reset := 0x0, rack := true}
  | .belSettle => {base := 0x100028, wide := false, rw := 0x0, w1c := 0x0, rd := 0xFFFFFFFF, reset := 0xF4240, rack := true}
  | .belTickLen => {base := 0x10002C, wide := false, rw := 0x0, w1c := 0x0, rd := 0xFFFFFFFF, reset := 0x2FAF080, rack := true}
  | .belSrcCtl => {base := 0x100030, wide := false, rw := 0x3, w1c := 0x0, rd := 0x3, reset := 0x3, rack := true}
  | .belStatus => {base := 0x100034, wide := false, rw := 0x0, w1c := 0x0, rd := 0x3F3, reset := 0xC0, rack := true}
  | .belPhaseErr => {base := 0x100038, wide := false, rw := 0x0, w1c := 0x0, rd := 0xFFFFFFFF, reset := 0x0, rack := true}
  | .belRejects => {base := 0x10003C, wide := false, rw := 0x0, w1c := 0x0, rd := 0xFFFFFF0F, reset := 0x0, rack := true}
  | .belEvent => {base := 0x100040, wide := false, rw := 0x0, w1c := 0x3FF, rd := 0x3FF, reset := 0x0, rack := true}
  | .belEventEn => {base := 0x100044, wide := false, rw := 0x3FF, w1c := 0x0, rd := 0x3FF, reset := 0x3FF, rack := true}
  | .belAlign => {base := 0x100048, wide := true, rw := 0xFFFFFFFFFFFFFFFF, w1c := 0x0, rd := 0xFFFFFFFFFFFFFFFF, reset := 0x0, rack := true}
  | .belSkew => {base := 0x100050, wide := false, rw := 0x0, w1c := 0x0, rd := 0xFFFFFFFF, reset := 0x0, rack := true}
  | .belPathDelay => {base := 0x100054, wide := false, rw := 0x0, w1c := 0x0, rd := 0xFFFFFFFF, reset := 0x0, rack := true}
  | .belPtp => {base := 0x100060, wide := false, rw := 0x17F, w1c := 0x0, rd := 0x17F, reset := 0x7F, rack := true}
  | .tntCtl => {base := 0x200000, wide := false, rw := 0x33, w1c := 0x0, rd := 0x33, reset := 0x0, s0 := 0x2000, n0 := 64}
  | .tntStatus => {base := 0x200004, wide := false, rw := 0x0, w1c := 0x0, rd := 0x1F3F, reset := 0x0, s0 := 0x2000, n0 := 64}
  | .tntPtroot => {base := 0x200008, wide := true, rw := 0xFFFFFFFFF0001, w1c := 0x0, rd := 0xFFFFFFFFF0001, reset := 0x0, s0 := 0x2000, n0 := 64}
  | .tntAllot => {base := 0x200010, wide := false, rw := 0x3FF1F7F, w1c := 0x0, rd := 0x3FF1F7F, reset := 0x0, s0 := 0x2000, n0 := 64}
  | .tntFlogBase => {base := 0x200018, wide := true, rw := 0xFFFFFFFFFFFFFFFF, w1c := 0x0, rd := 0xFFFFFFFFFFFFFFFF, reset := 0x0, s0 := 0x2000, n0 := 64}
  | .tntFlogHead => {base := 0x200020, wide := false, rw := 0xFFFFFFFF, w1c := 0x0, rd := 0xFFFFFFFF, reset := 0x0, s0 := 0x2000, n0 := 64}
  | .tntFlogTail => {base := 0x200024, wide := false, rw := 0x0, w1c := 0x0, rd := 0xFFFFFFFF, reset := 0x0, s0 := 0x2000, n0 := 64}
  | .tntFlogLost => {base := 0x200028, wide := false, rw := 0x0, w1c := 0x0, rd := 0xFFFFFFFF, reset := 0x0, s0 := 0x2000, n0 := 64}
  | .tntTeNode => {base := 0x20002C, wide := false, rw := 0x0, w1c := 0x0, rd := 0xFFFFFFFF, reset := 0x0, s0 := 0x2000, n0 := 64}
  | .tntReset => {base := 0x200030, wide := false, rw := 0x0, w1c := 0x0, rd := 0x0, reset := 0x0, s0 := 0x2000, n0 := 64}
  | .gteBudget => {base := 0x200040, wide := false, rw := 0xFFFFFFFF, w1c := 0x0, rd := 0xFFFFFFFF, reset := 0x0, s0 := 0x2000, n0 := 64}
  | .gteRemain => {base := 0x200044, wide := false, rw := 0x0, w1c := 0x0, rd := 0xFFFFFFFF, reset := 0x0, s0 := 0x2000, n0 := 64}
  | .gteAdmitted => {base := 0x200048, wide := false, rw := 0x0, w1c := 0x0, rd := 0xFFFFFFFF, reset := 0x0, s0 := 0x2000, n0 := 64}
  | .ledCur => {base := 0x200080, wide := true, rw := 0x0, w1c := 0x0, rd := 0xFFFFFFFFFFFFFFFF, reset := 0x0, s0 := 0x2000, n0 := 64}
  | .ledLast => {base := 0x200088, wide := true, rw := 0x0, w1c := 0x0, rd := 0xFFFFFFFFFFFFFFFF, reset := 0x0, s0 := 0x2000, n0 := 64}
  | .ledTotal => {base := 0x200090, wide := true, rw := 0x0, w1c := 0x0, rd := 0xFFFFFFFFFFFFFFFF, reset := 0x0, s0 := 0x2000, n0 := 64}
  | .ledToll => {base := 0x200098, wide := false, rw := 0xFFFFFFFF, w1c := 0x0, rd := 0xFFFFFFFF, reset := 0x0, s0 := 0x2000, n0 := 64}
  | .ledTollCtl => {base := 0x20009C, wide := false, rw := 0x7, w1c := 0x0, rd := 0x7, reset := 0x2, s0 := 0x2000, n0 := 64}
  | .ledStatus => {base := 0x2000A0, wide := false, rw := 0x0, w1c := 0x0, rd := 0xFFFF0001, reset := 0x0, s0 := 0x2000, n0 := 64}
  | .tntQBase => {base := 0x201000, wide := true, rw := 0xFFFFFFFFFFFFFFFF, w1c := 0x0, rd := 0xFFFFFFFFFFFFFFFF, reset := 0x0, s0 := 0x2000, n0 := 64, s1 := 0x40, n1 := 32}
  | .tntQHdr => {base := 0x201008, wide := true, rw := 0xFFFFFFFFFFFFFFFF, w1c := 0x0, rd := 0xFFFFFFFFFFFFFFFF, reset := 0x0, s0 := 0x2000, n0 := 64, s1 := 0x40, n1 := 32}
  | .tntQCtl => {base := 0x201010, wide := false, rw := 0x1F0F, w1c := 0x0, rd := 0x1F0F, reset := 0x0, s0 := 0x2000, n0 := 64, s1 := 0x40, n1 := 32}
  | .tntQStatus => {base := 0x201014, wide := false, rw := 0x0, w1c := 0x0, rd := 0xFFFFF00F, reset := 0x0, s0 := 0x2000, n0 := 64, s1 := 0x40, n1 := 32}
  | .tntEnabled => {base := 0x280000, wide := true, rw := 0x0, w1c := 0x0, rd := 0xFFFFFFFFFFFFFFFF, reset := 0x0}
  | .ledSys => {base := 0x280008, wide := true, rw := 0x0, w1c := 0x0, rd := 0xFFFFFFFFFFFFFFFF, reset := 0x0}
  | .ledPkg => {base := 0x280010, wide := true, rw := 0x0, w1c := 0x0, rd := 0xFFFFFFFFFFFFFFFF, reset := 0x0}
  | .schCtl => {base := 0x300000, wide := false, rw := 0x1, w1c := 0x0, rd := 0x1, reset := 0x0, s0 := 0x8000, n0 := 2}
  | .schStatus => {base := 0x300004, wide := false, rw := 0x0, w1c := 0x0, rd := 0x1FFF1FFF, reset := 0x0, s0 := 0x8000, n0 := 2}
  | .schRefused => {base := 0x300008, wide := false, rw := 0x0, w1c := 0x0, rd := 0xFFFFFFFF, reset := 0x0, s0 := 0x8000, n0 := 2}
  | .schStray => {base := 0x30000C, wide := false, rw := 0x0, w1c := 0x0, rd := 0xFFFFFFFF, reset := 0x0, s0 := 0x8000, n0 := 2}
  | .schPreempts => {base := 0x300010, wide := false, rw := 0x0, w1c := 0x0, rd := 0xFFFFFFFF, reset := 0x0, s0 := 0x8000, n0 := 2}
  | .schChCfg => {base := 0x300040, wide := false, rw := 0x1FFF77, w1c := 0x0, rd := 0x1FFF77, reset := 0x0, s0 := 0x8000, n0 := 2, s1 := 0x8, n1 := 8}
  | .schChStatus => {base := 0x300044, wide := false, rw := 0x0, w1c := 0x0, rd := 0x3FFF1FFF, reset := 0x0, s0 := 0x8000, n0 := 2, s1 := 0x8, n1 := 8}
  | .schCore => {base := 0x300100, wide := false, rw := 0xFF, w1c := 0x0, rd := 0x3F0100FF, reset := 0xFF, s0 := 0x8000, n0 := 2, s1 := 0x4, n1 := 48}
  | .schTlimit => {base := 0x300200, wide := false, rw := 0x1FFF, w1c := 0x0, rd := 0x1FFF1FFF, reset := 0x100, s0 := 0x8000, n0 := 2, s1 := 0x4, n1 := 64}
  | .schTrun => {base := 0x310000, wide := false, rw := 0x0, w1c := 0x0, rd := 0x7F, reset := 0x0, s0 := 0x4, n0 := 64}
  | .schQnotify => {base := 0x320000, wide := false, rw := 0xFFFFFFFF, w1c := 0x0, rd := 0xFFFFFFFF, reset := 0x0, s0 := 0x80, n0 := 64, s1 := 0x4, n1 := 32}
  | .mmuCeCount => {base := 0x400000, wide := true, rw := 0x0, w1c := 0x0, rd := 0xFFFFFFFFFFFFFFFF, reset := 0x0}
  | .mmuUeCount => {base := 0x400008, wide := true, rw := 0x0, w1c := 0x0, rd := 0xFFFFFFFFFFFFFFFF, reset := 0x0}
  | .mmuUePa => {base := 0x400010, wide := true, rw := 0x0, w1c := 0x0, rd := 0xFFFFFFFFFFFFFFFF, reset := 0x0}
  | .mmuRemoteFail => {base := 0x400018, wide := false, rw := 0x0, w1c := 0x0, rd := 0xFFFFFFFF, reset := 0x0}
  | .mmuWalkLast => {base := 0x401000, wide := true, rw := 0x0, w1c := 0x0, rd := 0xFFFFFFFFFFFFFFFF, reset := 0x0, s0 := 0x10, n0 := 96}
  | .mmuWalkLastReason => {base := 0x401008, wide := false, rw := 0x0, w1c := 0x0, rd := 0xFFFF, reset := 0x0, s0 := 0x10, n0 := 96}
  | .mmuTlbiVa => {base := 0x410000, wide := true, rw := 0x7FFFFFFFFF0000, w1c := 0x0, rd := 0x7FFFFFFFFF0000, reset := 0x0}
  | .mmuTlbiCmd => {base := 0x410008, wide := false, rw := 0x0, w1c := 0x0, rd := 0x0, reset := 0x0}
  | .mmuTlbiSync => {base := 0x41000C, wide := false, rw := 0x0, w1c := 0x0, rd := 0xFFFFFFFF, reset := 0x1}
  | .regSplit => {base := 0x480000, wide := false, rw := 0x3F, w1c := 0x0, rd := 0x3F, reset := 0x20}
  | .regStatus => {base := 0x480004, wide := false, rw := 0x0, w1c := 0x0, rd := 0x3, reset := 0x0}
  | .regScrub => {base := 0x480008, wide := false, rw := 0xFF, w1c := 0x0, rd := 0xFF, reset := 0x18}
  | .regCtl => {base := 0x48000C, wide := false, rw := 0x1, w1c := 0x0, rd := 0x1, reset := 0x0}
  | .regEntry => {base := 0x481000, wide := true, rw := 0x1FFFFFFF001, w1c := 0x0, rd := 0x1FFFFFFF001, reset := 0x0, s0 := 0x8, n0 := 1024}
  | .prtCtl => {base := 0x500000, wide := false, rw := 0x1, w1c := 0x0, rd := 0x1, reset := 0x0, s0 := 0x8000, n0 := 2}
  | .prtStatus => {base := 0x500004, wide := false, rw := 0x0, w1c := 0x0, rd := 0x7F03, reset := 0x0, s0 := 0x8000, n0 := 2}
  | .prtScratchBase => {base := 0x500008, wide := true, rw := 0xFFFFFFFFFFFFFFFF, w1c := 0x0, rd := 0xFFFFFFFFFFFFFFFF, reset := 0x0, s0 := 0x8000, n0 := 2}
  | .prtScratchSize => {base := 0x500010, wide := true, rw := 0xFFFFFFFFFFFFFFFF, w1c := 0x0, rd := 0xFFFFFFFFFFFFFFFF, reset := 0x0, s0 := 0x8000, n0 := 2}
  | .prtBytes => {base := 0x500018, wide := true, rw := 0x0, w1c := 0x0, rd := 0xFFFFFFFFFFFFFFFF, reset := 0x0, s0 := 0x8000, n0 := 2}
  | .prtStaged => {base := 0x500020, wide := false, rw := 0x0, w1c := 0x0, rd := 0xFFFFFFFF, reset := 0x0, s0 := 0x8000, n0 := 2}
  | .prtPoison => {base := 0x500024, wide := false, rw := 0x0, w1c := 0x0, rd := 0xFFFFFFFF, reset := 0x0, s0 := 0x8000, n0 := 2}
  | .teCtl => {base := 0x1000000, wide := false, rw := 0x1, w1c := 0x0, rd := 0x1, reset := 0x0, s0 := 0x10000, n0 := 16}
  | .teStatus => {base := 0x1000004, wide := false, rw := 0x0, w1c := 0x0, rd := 0x3F0007, reset := 0x0, s0 := 0x10000, n0 := 16}
  | .teCaravan => {base := 0x1000008, wide := false, rw := 0xFF7FFFFF, w1c := 0x0, rd := 0xFF7FFFFF, reset := 0x100200, s0 := 0x10000, n0 := 16}
  | .tePoolUsed => {base := 0x1000010, wide := false, rw := 0x0, w1c := 0x0, rd := 0x1FFFF, reset := 0x0, s0 := 0x10000, n0 := 16}
  | .tePoolSusp => {base := 0x1000014, wide := false, rw := 0x0, w1c := 0x0, rd := 0x1FFFF, reset := 0x0, s0 := 0x10000, n0 := 16}
  | .teRaysIn => {base := 0x1000020, wide := true, rw := 0x0, w1c := 0x0, rd := 0xFFFFFFFFFFFFFFFF, reset := 0x0, s0 := 0x10000, n0 := 16}
  | .teRaysOut => {base := 0x1000028, wide := true, rw := 0x0, w1c := 0x0, rd := 0xFFFFFFFFFFFFFFFF, reset := 0x0, s0 := 0x10000, n0 := 16}
  | .teVisits => {base := 0x1000030, wide := true, rw := 0x0, w1c := 0x0, rd := 0xFFFFFFFFFFFFFFFF, reset := 0x0, s0 := 0x10000, n0 := 16}
  | .teTritests => {base := 0x1000038, wide := true, rw := 0x0, w1c := 0x0, rd := 0xFFFFFFFFFFFFFFFF, reset := 0x0, s0 := 0x10000, n0 := 16}
  | .teCaravans => {base := 0x1000040, wide := true, rw := 0x0, w1c := 0x0, rd := 0xFFFFFFFFFFFFFFFF, reset := 0x0, s0 := 0x10000, n0 := 16}
  | .teNcMiss => {base := 0x1000048, wide := true, rw := 0x0, w1c := 0x0, rd := 0xFFFFFFFFFFFFFFFF, reset := 0x0, s0 := 0x10000, n0 := 16}
  | .teCallbacks => {base := 0x1000050, wide := true, rw := 0x0, w1c := 0x0, rd := 0xFFFFFFFFFFFFFFFF, reset := 0x0, s0 := 0x10000, n0 := 16}
  | .teStat => {base := 0x1000080, wide := false, rw := 0x0, w1c := 0x0, rd := 0xFFFFFFFF, reset := 0x0, s0 := 0x10000, n0 := 16, s1 := 0x4, n1 := 8}
  | .teHqBase => {base := 0x1001000, wide := true, rw := 0xFFFFFFFFFFFFFFFF, w1c := 0x0, rd := 0xFFFFFFFFFFFFFFFF, reset := 0x0, s0 := 0x10000, n0 := 16, s1 := 0x40, n1 := 64}
  | .teHqHdr => {base := 0x1001008, wide := true, rw := 0xFFFFFFFFFFFFFFFF, w1c := 0x0, rd := 0xFFFFFFFFFFFFFFFF, reset := 0x0, s0 := 0x10000, n0 := 16, s1 := 0x40, n1 := 64}
  | .teHqCbBase => {base := 0x1001010, wide := true, rw := 0xFFFFFFFFFFFFFFFF, w1c := 0x0, rd := 0xFFFFFFFFFFFFFFFF, reset := 0x0, s0 := 0x10000, n0 := 16, s1 := 0x40, n1 := 64}
  | .teHqCbHdr => {base := 0x1001018, wide := true, rw := 0xFFFFFFFFFFFFFFFF, w1c := 0x0, rd := 0xFFFFFFFFFFFFFFFF, reset := 0x0, s0 := 0x10000, n0 := 16, s1 := 0x40, n1 := 64}
  | .teHqCtl => {base := 0x1001020, wide := false, rw := 0x3F1F1F03, w1c := 0x0, rd := 0x3F1F1F03, reset := 0x0, s0 := 0x10000, n0 := 16, s1 := 0x40, n1 := 64}
  | .teHqStatus => {base := 0x1001024, wide := false, rw := 0x0, w1c := 0x0, rd := 0xFFFF800F, reset := 0x0, s0 := 0x10000, n0 := 16, s1 := 0x40, n1 := 64}
  | .teHqHandle => {base := 0x1001028, wide := false, rw := 0xFFFFFFFF, w1c := 0x0, rd := 0xFFFFFFFF, reset := 0x0, s0 := 0x10000, n0 := 16, s1 := 0x40, n1 := 64}
  | .teHqCbHandle => {base := 0x100102C, wide := false, rw := 0xFFFFFFFF, w1c := 0x0, rd := 0xFFFFFFFF, reset := 0x0, s0 := 0x10000, n0 := 16, s1 := 0x40, n1 := 64}
  | .teHqThresh => {base := 0x1001030, wide := false, rw := 0x1FFFF, w1c := 0x0, rd := 0x1FFFF, reset := 0x1, s0 := 0x10000, n0 := 16, s1 := 0x40, n1 := 64}
  | .prbProbesIn => {base := 0x1008000, wide := true, rw := 0x0, w1c := 0x0, rd := 0xFFFFFFFFFFFFFFFF, reset := 0x0, s0 := 0x10000, n0 := 16}
  | .prbProbesOut => {base := 0x1008008, wide := true, rw := 0x0, w1c := 0x0, rd := 0xFFFFFFFFFFFFFFFF, reset := 0x0, s0 := 0x10000, n0 := 16}
  | .prbVisits => {base := 0x1008010, wide := true, rw := 0x0, w1c := 0x0, rd := 0xFFFFFFFFFFFFFFFF, reset := 0x0, s0 := 0x10000, n0 := 16}
  | .prbCands => {base := 0x1008018, wide := true, rw := 0x0, w1c := 0x0, rd := 0xFFFFFFFFFFFFFFFF, reset := 0x0, s0 := 0x10000, n0 := 16}
  | .prbTrunc => {base := 0x1008020, wide := true, rw := 0x0, w1c := 0x0, rd := 0xFFFFFFFFFFFFFFFF, reset := 0x0, s0 := 0x10000, n0 := 16}
  | .prbStat => {base := 0x1008080, wide := false, rw := 0x0, w1c := 0x0, rd := 0xFFFFFFFF, reset := 0x0, s0 := 0x10000, n0 := 16, s1 := 0x4, n1 := 8}
  | .prbRqBase => {base := 0x1009000, wide := true, rw := 0xFFFFFFFFFFFFFFFF, w1c := 0x0, rd := 0xFFFFFFFFFFFFFFFF, reset := 0x0, s0 := 0x10000, n0 := 16, s1 := 0x20, n1 := 64}
  | .prbRqHdr => {base := 0x1009008, wide := true, rw := 0xFFFFFFFFFFFFFFFF, w1c := 0x0, rd := 0xFFFFFFFFFFFFFFFF, reset := 0x0, s0 := 0x10000, n0 := 16, s1 := 0x20, n1 := 64}
  | .prbRqCtl => {base := 0x1009010, wide := false, rw := 0x3F001F03, w1c := 0x0, rd := 0x3F001F03, reset := 0x0, s0 := 0x10000, n0 := 16, s1 := 0x20, n1 := 64}
  | .prbRqStatus => {base := 0x1009014, wide := false, rw := 0x0, w1c := 0x0, rd := 0xFFFF8007, reset := 0x0, s0 := 0x10000, n0 := 16, s1 := 0x20, n1 := 64}
  | .prbRqHandle => {base := 0x1009018, wide := false, rw := 0xFFFFFFFF, w1c := 0x0, rd := 0xFFFFFFFF, reset := 0x0, s0 := 0x10000, n0 := 16, s1 := 0x20, n1 := 64}
  | .prbRqThresh => {base := 0x100901C, wide := false, rw := 0x1FFFF, w1c := 0x0, rd := 0x1FFFF, reset := 0x1, s0 := 0x10000, n0 := 16, s1 := 0x20, n1 := 64}
  | .rfeCtl => {base := 0x1800000, wide := false, rw := 0x1, w1c := 0x0, rd := 0x1, reset := 0x0, s0 := 0x10000, n0 := 2}
  | .rfeStatus => {base := 0x1800004, wide := false, rw := 0x0, w1c := 0x0, rd := 0x1FF3F07, reset := 0x0, s0 := 0x10000, n0 := 2}
  | .rfePrims => {base := 0x1800008, wide := true, rw := 0x0, w1c := 0x0, rd := 0xFFFFFFFFFFFFFFFF, reset := 0x0, s0 := 0x10000, n0 := 2}
  | .rfeSamples => {base := 0x1800010, wide := true, rw := 0x0, w1c := 0x0, rd := 0xFFFFFFFFFFFFFFFF, reset := 0x0, s0 := 0x10000, n0 := 2}
  | .rfeDiscard => {base := 0x1800018, wide := false, rw := 0x0, w1c := 0x0, rd := 0xFFFFFFFF, reset := 0x0, s0 := 0x10000, n0 := 2}
  | .rfePreempts => {base := 0x180001C, wide := false, rw := 0x0, w1c := 0x0, rd := 0xFFFFFFFF, reset := 0x0, s0 := 0x10000, n0 := 2}
  | .rfeFlushes => {base := 0x1800020, wide := false, rw := 0x0, w1c := 0x0, rd := 0xFFFFFFFF, reset := 0x0, s0 := 0x10000, n0 := 2}
  | .rfeResMiss => {base := 0x1800024, wide := false, rw := 0x0, w1c := 0x0, rd := 0xFFFFFFFF, reset := 0x0, s0 := 0x10000, n0 := 2}
  | .rfeTime => {base := 0x1800100, wide := false, rw := 0x0, w1c := 0x0, rd := 0xFFFFFFFF, reset := 0x0, s0 := 0x10000, n0 := 2, s1 := 0x4, n1 := 64}
  | .rfeCmpCtl => {base := 0x1820000, wide := false, rw := 0x3F000007, w1c := 0x0, rd := 0x3F000007, reset := 0x0}
  | .rfeCmpStatus => {base := 0x1820004, wide := false, rw := 0x0, w1c := 0x0, rd := 0x3, reset := 0x0}
  | .rfeCmpStride => {base := 0x1820008, wide := false, rw := 0xFFFFFFFF, w1c := 0x0, rd := 0xFFFFFFFF, reset := 0x1}
  | .rfeCmpLate => {base := 0x182000C, wide := false, rw := 0x0, w1c := 0x0, rd := 0xFFFFFFFF, reset := 0x0}
  | .rfeCmpSurf => {base := 0x1820010, wide := true, rw := 0x0, w1c := 0x0, rd := 0xFFFFFFFFFFFFFFFF, reset := 0x0}
  | .rfeGrowNeed => {base := 0x1C00000, wide := false, rw := 0x0, w1c := 0x0, rd := 0xFFFFFFFF, reset := 0x0, s0 := 0x10000, n0 := 64, s1 := 0x10, n1 := 2}
  | .rfeGrowCtl => {base := 0x1C00004, wide := false, rw := 0x0, w1c := 0x0, rd := 0x4, reset := 0x0, s0 := 0x10000, n0 := 64, s1 := 0x10, n1 := 2}
  | .rfeGrowHandle => {base := 0x1C00008, wide := false, rw := 0xFFFFFFFF, w1c := 0x0, rd := 0xFFFFFFFF, reset := 0x0, s0 := 0x10000, n0 := 64, s1 := 0x10, n1 := 2}
  | .depStatus => {base := 0x2000000, wide := false, rw := 0x0, w1c := 0x0, rd := 0xF1F3F1F, reset := 0x0, s0 := 0x40, n0 := 512}
  | .depInstr => {base := 0x2000008, wide := true, rw := 0x0, w1c := 0x0, rd := 0xFFFFFFFFFFFFFFFF, reset := 0x0, s0 := 0x40, n0 := 512}
  | .depBytes => {base := 0x2000010, wide := true, rw := 0x0, w1c := 0x0, rd := 0xFFFFFFFFFFFFFFFF, reset := 0x0, s0 := 0x40, n0 := 512}
  | .depStalls => {base := 0x2000018, wide := false, rw := 0x0, w1c := 0x0, rd := 0xFFFFFFFF, reset := 0x0, s0 := 0x40, n0 := 512}
  | .depEn => {base := 0x2010000, wide := false, rw := 0x0, w1c := 0x0, rd := 0xFFFFFFFF, reset := 0x0, s0 := 0x4, n0 := 16}
  | .depStray => {base := 0x2010040, wide := false, rw := 0x0, w1c := 0x0, rd := 0xFFFFFFFF, reset := 0x0}
  | .depFootMsgs => {base := 0x2010100, wide := true, rw := 0x0, w1c := 0x0, rd := 0xFFFFFFFFFFFFFFFF, reset := 0x0, s0 := 0x10, n0 := 8}
  | .depFootWaits => {base := 0x2010108, wide := false, rw := 0x0, w1c := 0x0, rd := 0xFFFFFFFF, reset := 0x0, s0 := 0x10, n0 := 8}
  | .twnLinkCtl => {base := 0x2800000, wide := false, rw := 0x7F01, w1c := 0x0, rd := 0x7F01, reset := 0x1901}
  | .twnLinkStatus => {base := 0x2800004, wide := false, rw := 0x0, w1c := 0x0, rd := 0x1F07, reset := 0x0}
  | .twnState => {base := 0x2800008, wide := false, rw := 0x0, w1c := 0x0, rd := 0xF17, reset := 0x0}
  | .twnEvent => {base := 0x280000C, wide := false, rw := 0x0, w1c := 0x1FF, rd := 0x1FF, reset := 0x0}
  | .twnEventEn => {base := 0x2800010, wide := false, rw := 0x1FF, w1c := 0x0, rd := 0x1FF, reset := 0x1FF}
  | .twnHwerr => {base := 0x2800014, wide := false, rw := 0x0, w1c := 0x0, rd := 0xFFFFFFFF, reset := 0x0}
  | .twnRetry => {base := 0x2800018, wide := true, rw := 0x0, w1c := 0x0, rd := 0xFFFFFFFFFFFFFFFF, reset := 0x0}
  | .twnTxBytes => {base := 0x2800020, wide := true, rw := 0x0, w1c := 0x0, rd := 0xFFFFFFFFFFFFFFFF, reset := 0x0}
  | .twnRxBytes => {base := 0x2800028, wide := true, rw := 0x0, w1c := 0x0, rd := 0xFFFFFFFFFFFFFFFF, reset := 0x0}
  | .twnJournalBase => {base := 0x2800040, wide := true, rw := 0xFFFFFFFFFFFFFFFF, w1c := 0x0, rd := 0xFFFFFFFFFFFFFFFF, reset := 0x0}
  | .twnJournalSize => {base := 0x2800048, wide := true, rw := 0xFFFFFFFFFFFFFFFF, w1c := 0x0, rd := 0xFFFFFFFFFFFFFFFF, reset := 0x0}
  | .twnUndoBase => {base := 0x2800050, wide := true, rw := 0xFFFFFFFFFFFFFFFF, w1c := 0x0, rd := 0xFFFFFFFFFFFFFFFF, reset := 0x0}
  | .twnUndoSize => {base := 0x2800058, wide := true, rw := 0xFFFFFFFFFFFFFFFF, w1c := 0x0, rd := 0xFFFFFFFFFFFFFFFF, reset := 0x0}
  | .twnKey => {base := 0x2800060, wide := false, rw := 0x0, w1c := 0x0, rd := 0x0, reset := 0x0, s0 := 0x4, n0 := 8}
  | .twnT => {base := 0x2800100, wide := false, rw := 0x0, w1c := 0x0, rd := 0xFFFFFFFF, reset := 0x0, s0 := 0x10, n0 := 64, s1 := 0x4, n1 := 4}
  | .twnRange => {base := 0x2801000, wide := true, rw := 0xFFFFFFFF7FFFFFFF, w1c := 0x0, rd := 0xFFFFFFFF7FFFFFFF, reset := 0x0, s0 := 0x8, n0 := 256}
  | .pwrStatus => {base := 0x3000000, wide := false, rw := 0x0, w1c := 0x0, rd := 0xFF, reset := 0x0}
  | .pwrEvent => {base := 0x3000004, wide := false, rw := 0x0, w1c := 0x1FF, rd := 0x1FF, reset := 0x0}
  | .pwrEventEn => {base := 0x3000008, wide := false, rw := 0x1FF, w1c := 0x0, rd := 0x1FF, reset := 0x1FF}
  | .pwrCtl => {base := 0x300000C, wide := false, rw := 0xFFF, w1c := 0x0, rd := 0xFFF, reset := 0x7D0}
  | .pwrVin => {base := 0x3000010, wide := false, rw := 0x0, w1c := 0x0, rd := 0xFFFFFFFF, reset := 0x0}
  | .pwrV12 => {base := 0x3000014, wide := false, rw := 0x0, w1c := 0x0, rd := 0xFFFFFFFF, reset := 0x0}
  | .pwrVpp => {base := 0x3000018, wide := false, rw := 0x0, w1c := 0x0, rd := 0xFFFFFFFF, reset := 0x0}
  | .pwrVinMin => {base := 0x300001C, wide := false, rw := 0x0, w1c := 0x0, rd := 0xFFFFFFFF, reset := 0x0}
  | .pwrClk => {base := 0x3000020, wide := false, rw := 0x0, w1c := 0x0, rd := 0xFFFFFFFF, reset := 0x0}
  | .pwrPkg => {base := 0x3000024, wide := false, rw := 0x0, w1c := 0x0, rd := 0xFFFFFFFF, reset := 0x0}
  | .pwrNvRefused => {base := 0x3000028, wide := false, rw := 0x0, w1c := 0x0, rd := 0xFFFFFFFF, reset := 0x0}
  | .pwrTj => {base := 0x300002C, wide := false, rw := 0x0, w1c := 0x0, rd := 0xFFFFFFFF, reset := 0x0}
  | .pwrWarnTicks => {base := 0x3000030, wide := false, rw := 0x0, w1c := 0x0, rd := 0xFFFFFFFF, reset := 0x0}
  | .pwrLedExcess => {base := 0x3000040, wide := true, rw := 0x0, w1c := 0x0, rd := 0xFFFFFFFFFFFFFFFF, reset := 0x0}
  | .pwrCoef => {base := 0x3000100, wide := false, rw := 0x0, w1c := 0x0, rd := 0xFFFFFFFF, reset := 0x0, s0 := 0x4, n0 := 32}
  | .pwrStatic => {base := 0x3000180, wide := false, rw := 0x0, w1c := 0x0, rd := 0xFFFFFFFF, reset := 0x0}
  | .cslCtl => {base := 0x3100000, wide := false, rw := 0x1F, w1c := 0x0, rd := 0x1F, reset := 0x13, rack := true}
  | .cslFmt => {base := 0x3100004, wide := false, rw := 0x37F, w1c := 0x0, rd := 0x37F, reset := 0x8, rack := true}
  | .cslDiv => {base := 0x3100008, wide := false, rw := 0xFFFFF, w1c := 0x0, rd := 0xFFFFF, reset := 0x1A0B, rack := true}
  | .cslBrklen => {base := 0x310000C, wide := false, rw := 0xFFFF, w1c := 0x0, rd := 0xFFFF, reset := 0x14, rack := true}
  | .cslRts => {base := 0x3100010, wide := false, rw := 0x7F7F, w1c := 0x0, rd := 0x7F7F, reset := 0x2038, rack := true}
  | .cslStatus => {base := 0x3100014, wide := false, rw := 0x0, w1c := 0x0, rd := 0x7F7F7F, reset := 0x0, rack := true}
  | .cslEvent => {base := 0x3100018, wide := false, rw := 0x0, w1c := 0x1FF, rd := 0x1FF, reset := 0x0, rack := true}
  | .cslEventEn => {base := 0x310001C, wide := false, rw := 0x1FF, w1c := 0x0, rd := 0x1FF, reset := 0x1FF, rack := true}
  | .cslRxdata => {base := 0x3100020, wide := false, rw := 0x0, w1c := 0x0, rd := 0xFFFFFFFF, reset := 0x0, rack := true}
  | .cslTxdata => {base := 0x3100024, wide := false, rw := 0x0, w1c := 0x0, rd := 0x0, reset := 0x0, rack := true}
  | .cslOverruns => {base := 0x3100028, wide := false, rw := 0x0, w1c := 0x0, rd := 0xFFFFFFFF, reset := 0x0, rack := true}
  | .cslTxref => {base := 0x310002C, wide := false, rw := 0x0, w1c := 0x0, rd := 0xFFFFFFFF, reset := 0x0, rack := true}
  | .cslWakeLost => {base := 0x3100030, wide := false, rw := 0x0, w1c := 0x0, rd := 0xFFFFFFFF, reset := 0x0, rack := true}
  | .curCtl => {base := 0x3101000, wide := false, rw := 0x3, w1c := 0x0, rd := 0x3, reset := 0x3, rack := true}
  | .curDiv => {base := 0x3101004, wide := false, rw := 0xFFFFF, w1c := 0x0, rd := 0xFFFFF, reset := 0x300, rack := true}
  | .curStatus => {base := 0x3101008, wide := false, rw := 0x0, w1c := 0x0, rd := 0x1F0F001F, reset := 0x0, rack := true}
  | .curEvent => {base := 0x310100C, wide := false, rw := 0x0, w1c := 0x7F, rd := 0x7F, reset := 0x0, rack := true}
  | .curEventEn => {base := 0x3101010, wide := false, rw := 0x1FF, w1c := 0x0, rd := 0x1FF, reset := 0x1FF, rack := true}
  | .curHealth => {base := 0x3101014, wide := false, rw := 0xFFFFFFFF, w1c := 0x0, rd := 0xFFFFFFFF, reset := 0x0, rack := true}
  | .curCollisions => {base := 0x3101018, wide := false, rw := 0x0, w1c := 0x0, rd := 0xFFFFFFFF, reset := 0x0, rack := true}
  | .curBadFrames => {base := 0x310101C, wide := false, rw := 0x0, w1c := 0x0, rd := 0xFFFFFFFF, reset := 0x0, rack := true}
  | .curTxAbort => {base := 0x3101020, wide := false, rw := 0x0, w1c := 0x0, rd := 0xFFFFFFFF, reset := 0x0, rack := true}
  | .curWakeLost => {base := 0x3101024, wide := false, rw := 0x0, w1c := 0x0, rd := 0xFFFFFFFF, reset := 0x0, rack := true}
  | .curTxbuf => {base := 0x3101040, wide := false, rw := 0xFFFFFFFF, w1c := 0x0, rd := 0xFFFFFFFF, reset := 0x0, s0 := 0x4, n0 := 16, rack := true}
  | .curRxbuf => {base := 0x3101080, wide := false, rw := 0x0, w1c := 0x0, rd := 0xFFFFFFFF, reset := 0x0, s0 := 0x40, n0 := 4, s1 := 0x4, n1 := 16, rack := true}
  | .fusRow => {base := 0x3200000, wide := false, rw := 0x0, w1c := 0x0, rd := 0xFFFFFFFF, reset := 0x0, s0 := 0x4, n0 := 128}
  | .fusProg => {base := 0x3200200, wide := false, rw := 0x7F, w1c := 0x0, rd := 0x7F, reset := 0x0}
  | .fusProgMask => {base := 0x3200204, wide := false, rw := 0xFFFFFFFF, w1c := 0x0, rd := 0xFFFFFFFF, reset := 0x0}
  | .fusProgStatus => {base := 0x3200208, wide := false, rw := 0x0, w1c := 0x0, rd := 0xFFFF000F, reset := 0x0}
  | .fusBoot => {base := 0x3200210, wide := false, rw := 0x0, w1c := 0x0, rd := 0xFF0F, reset := 0x0}
  | .fusDebug => {base := 0x3200214, wide := false, rw := 0x1, w1c := 0x0, rd := 0x3, reset := 0x0}
  | .twnRkSled => {base := 0x2800000, wide := false, rw := 0x0, w1c := 0x0, rd := 0xFFFF0F07, reset := 0x0, s0 := 0x4, n0 := 16, sled := false, rack := true}
  | .twnRkLease => {base := 0x2800040, wide := false, rw := 0x0, w1c := 0x0, rd := 0xFF, reset := 0x0, sled := false, rack := true}
  | .twnRkRole => {base := 0x2800044, wide := false, rw := 0x0, w1c := 0x0, rd := 0x7, reset := 0x0, sled := false, rack := true}
  | .twnRkCtl => {base := 0x2800048, wide := false, rw := 0x0, w1c := 0x0, rd := 0x0, reset := 0x0, sled := false, rack := true}
  | .twnRkCfgDigest => {base := 0x2800080, wide := false, rw := 0x0, w1c := 0x0, rd := 0xFFFFFFFF, reset := 0x0, s0 := 0x4, n0 := 12, sled := false, rack := true}
  | .twnRkDpCtl => {base := 0x2800100, wide := false, rw := 0x3FFF3F01, w1c := 0x0, rd := 0x3FFF3F01, reset := 0x0, s0 := 0x40, n0 := 8, sled := false, rack := true}
  | .twnRkDpRx => {base := 0x2800108, wide := true, rw := 0xFFFFFFFFFFFFFFFF, w1c := 0x0, rd := 0xFFFFFFFFFFFFFFFF, reset := 0x0, s0 := 0x40, n0 := 8, sled := false, rack := true}
  | .twnRkDpRxHdr => {base := 0x2800110, wide := true, rw := 0xFFFFFFFFFFFFFFFF, w1c := 0x0, rd := 0xFFFFFFFFFFFFFFFF, reset := 0x0, s0 := 0x40, n0 := 8, sled := false, rack := true}
  | .twnRkDpTx => {base := 0x2800118, wide := true, rw := 0xFFFFFFFFFFFFFFFF, w1c := 0x0, rd := 0xFFFFFFFFFFFFFFFF, reset := 0x0, s0 := 0x40, n0 := 8, sled := false, rack := true}
  | .twnRkDpTxHdr => {base := 0x2800120, wide := true, rw := 0xFFFFFFFFFFFFFFFF, w1c := 0x0, rd := 0xFFFFFFFFFFFFFFFF, reset := 0x0, s0 := 0x40, n0 := 8, sled := false, rack := true}
  | .dpRxDrop => {base := 0x2800128, wide := true, rw := 0x0, w1c := 0x0, rd := 0xFFFFFFFFFFFFFFFF, reset := 0x0, s0 := 0x40, n0 := 8, sled := false, rack := true}
  | .dpTx => {base := 0x2800130, wide := true, rw := 0x0, w1c := 0x0, rd := 0xFFFFFFFFFFFFFFFF, reset := 0x0, s0 := 0x40, n0 := 8, sled := false, rack := true}
  | .rfeVidCtl => {base := 0x1830000, wide := false, rw := 0x370F03, w1c := 0x0, rd := 0x370F03, reset := 0x0, s0 := 0x100, n0 := 4, sled := false, rack := true}
  | .rfeVidRaster => {base := 0x1830004, wide := false, rw := 0xFFFFFFFF, w1c := 0x0, rd := 0xFFFFFFFF, reset := 0x8701000, s0 := 0x100, n0 := 4, sled := false, rack := true}
  | .rfeVidStatus => {base := 0x1830008, wide := false, rw := 0x0, w1c := 0x0, rd := 0x1F, reset := 0x0, s0 := 0x100, n0 := 4, sled := false, rack := true}
  | .rfeVidRtp => {base := 0x183000C, wide := false, rw := 0xFF3F7F, w1c := 0x0, rd := 0xFF3F7F, reset := 0x60, s0 := 0x100, n0 := 4, sled := false, rack := true}
  | .rfeVidSrcIp => {base := 0x1830010, wide := false, rw := 0xFFFFFFFF, w1c := 0x0, rd := 0xFFFFFFFF, reset := 0x0, s0 := 0x100, n0 := 4, sled := false, rack := true}
  | .rfeVidDstIp => {base := 0x1830014, wide := false, rw := 0xFFFFFFFF, w1c := 0x0, rd := 0xFFFFFFFF, reset := 0x0, s0 := 0x100, n0 := 4, sled := false, rack := true}
  | .rfeVidUdp => {base := 0x1830018, wide := false, rw := 0xFFFFFFFF, w1c := 0x0, rd := 0xFFFFFFFF, reset := 0x13881388, s0 := 0x100, n0 := 4, sled := false, rack := true}
  | .rfeVidSsrc => {base := 0x183001C, wide := false, rw := 0xFFFFFFFF, w1c := 0x0, rd := 0xFFFFFFFF, reset := 0x0, s0 := 0x100, n0 := 4, sled := false, rack := true}
  | .rfeVidDstMac => {base := 0x1830020, wide := true, rw := 0xFFFFFFFFFFFF, w1c := 0x0, rd := 0xFFFFFFFFFFFF, reset := 0x0, s0 := 0x100, n0 := 4, sled := false, rack := true}
  | .rfeVidFrames => {base := 0x1830028, wide := true, rw := 0x0, w1c := 0x0, rd := 0xFFFFFFFFFFFFFFFF, reset := 0x0, s0 := 0x100, n0 := 4, sled := false, rack := true}
  | .curRkIso => {base := 0x3101100, wide := false, rw := 0xFFFF, w1c := 0x0, rd := 0xFFFF, reset := 0x0, sled := false, rack := true}

def regs0 : List Reg := [.vendor, .part, .stepping, .sled, .service, .manifest, .belCount, .belTime, .belTickStart, .belPeriod, .belFrac, .belPeriodNext, .belFracNext, .belSettle, .belTickLen, .belSrcCtl, .belStatus, .belPhaseErr, .belRejects, .belEvent, .belEventEn, .belAlign, .belSkew, .belPathDelay, .belPtp, .tntCtl, .tntStatus, .tntPtroot, .tntAllot, .tntFlogBase, .tntFlogHead, .tntFlogTail, .tntFlogLost, .tntTeNode, .tntReset, .gteBudget, .gteRemain, .gteAdmitted, .ledCur, .ledLast]

def regs1 : List Reg := [.ledTotal, .ledToll, .ledTollCtl, .ledStatus, .tntQBase, .tntQHdr, .tntQCtl, .tntQStatus, .tntEnabled, .ledSys, .ledPkg, .schCtl, .schStatus, .schRefused, .schStray, .schPreempts, .schChCfg, .schChStatus, .schCore, .schTlimit, .schTrun, .schQnotify, .mmuCeCount, .mmuUeCount, .mmuUePa, .mmuRemoteFail, .mmuWalkLast, .mmuWalkLastReason, .mmuTlbiVa, .mmuTlbiCmd, .mmuTlbiSync, .regSplit, .regStatus, .regScrub, .regCtl, .regEntry, .prtCtl, .prtStatus, .prtScratchBase, .prtScratchSize]

def regs2 : List Reg := [.prtBytes, .prtStaged, .prtPoison, .teCtl, .teStatus, .teCaravan, .tePoolUsed, .tePoolSusp, .teRaysIn, .teRaysOut, .teVisits, .teTritests, .teCaravans, .teNcMiss, .teCallbacks, .teStat, .teHqBase, .teHqHdr, .teHqCbBase, .teHqCbHdr, .teHqCtl, .teHqStatus, .teHqHandle, .teHqCbHandle, .teHqThresh, .prbProbesIn, .prbProbesOut, .prbVisits, .prbCands, .prbTrunc, .prbStat, .prbRqBase, .prbRqHdr, .prbRqCtl, .prbRqStatus, .prbRqHandle, .prbRqThresh, .rfeCtl, .rfeStatus, .rfePrims]

def regs3 : List Reg := [.rfeSamples, .rfeDiscard, .rfePreempts, .rfeFlushes, .rfeResMiss, .rfeTime, .rfeCmpCtl, .rfeCmpStatus, .rfeCmpStride, .rfeCmpLate, .rfeCmpSurf, .rfeGrowNeed, .rfeGrowCtl, .rfeGrowHandle, .depStatus, .depInstr, .depBytes, .depStalls, .depEn, .depStray, .depFootMsgs, .depFootWaits, .twnLinkCtl, .twnLinkStatus, .twnState, .twnEvent, .twnEventEn, .twnHwerr, .twnRetry, .twnTxBytes, .twnRxBytes, .twnJournalBase, .twnJournalSize, .twnUndoBase, .twnUndoSize, .twnKey, .twnT, .twnRange, .pwrStatus, .pwrEvent]

def regs4 : List Reg := [.pwrEventEn, .pwrCtl, .pwrVin, .pwrV12, .pwrVpp, .pwrVinMin, .pwrClk, .pwrPkg, .pwrNvRefused, .pwrTj, .pwrWarnTicks, .pwrLedExcess, .pwrCoef, .pwrStatic, .cslCtl, .cslFmt, .cslDiv, .cslBrklen, .cslRts, .cslStatus, .cslEvent, .cslEventEn, .cslRxdata, .cslTxdata, .cslOverruns, .cslTxref, .cslWakeLost, .curCtl, .curDiv, .curStatus, .curEvent, .curEventEn, .curHealth, .curCollisions, .curBadFrames, .curTxAbort, .curWakeLost, .curTxbuf, .curRxbuf, .fusRow]

def regs5 : List Reg := [.fusProg, .fusProgMask, .fusProgStatus, .fusBoot, .fusDebug, .twnRkSled, .twnRkLease, .twnRkRole, .twnRkCtl, .twnRkCfgDigest, .twnRkDpCtl, .twnRkDpRx, .twnRkDpRxHdr, .twnRkDpTx, .twnRkDpTxHdr, .dpRxDrop, .dpTx, .rfeVidCtl, .rfeVidRaster, .rfeVidStatus, .rfeVidRtp, .rfeVidSrcIp, .rfeVidDstIp, .rfeVidUdp, .rfeVidSsrc, .rfeVidDstMac, .rfeVidFrames, .curRkIso]

/-- Every register. -/
def regs : List Reg := regs0 ++ regs1 ++ regs2 ++ regs3 ++ regs4 ++ regs5

/-- The offset of register (i, j). -/
def regOff (r : Reg) (i j : Nat) : Nat := (regInfo r).base + i * (regInfo r).s0 + j * (regInfo r).s1

/-- A register found at an offset: its indices, and whether the offset is a pair's high word. -/
structure RegHit where
  reg : Reg
  i : Nat
  j : Nat
  high : Bool
deriving DecidableEq, Repr

/-- Register `r`, if the word at `off` is one of its words. -/
def regHit (r : Reg) (off : Nat) : Option RegHit :=
  let f := regInfo r
  let o := off - f.base
  let i := o / f.s0
  let j := o % f.s0 / f.s1
  let k := o % f.s0 % f.s1
  if f.base ≤ off ∧ i < f.n0 ∧ j < f.n1 ∧ (k = 0 ∨ (f.wide ∧ k = 4)) then some ⟨r, i, j, k = 4⟩ else none

/-- The register with a word at `off`, on a sled (`rack` false) or in a Rack Factor's management space. -/
def regAt (rack : Bool) (off : Nat) : Option RegHit :=
  regs.findSome? fun r => if (if rack then (regInfo r).rack else (regInfo r).sled) then regHit r off else none

/-- The reset value of register (i, j). The reset RANK of channel c is c, its QUOTA 512 and its PREEMPT 1 (Table 7.6). -/
def regReset (r : Reg) (_i j : Nat) : Nat :=
  match r with
  | .schChCfg => 131074 + 16 * j
  | r => (regInfo r).reset

end Sys2Proof.Machine
end

