-- ==== Sys2Proof/Machine/State.lean ====
section
/-! DEFINITION. The state of the machine as plain data: every register, memory, queue, list and link the spec gives it, and the state after reset. -/
namespace Sys2Proof.Machine

/-! ### Config space (00_scope.md) -/

/-- The config space of a node. `words` holds each 32-bit word by its offset (a word not listed holds its reset value),
`shadows` the high words latched for a requester (R8), `held` the low words held for a requester (R9), `raised` the W1C bits that hardware
set last, as (offset, bit, time): a write of 1 in that same cycle leaves them set (R14). -/
structure CfgSpace where
  words : Map Word32 := []
  shadows : List (Requester × Nat × Word32) := []
  held : List (Nat × Requester × Word32) := []
  raised : List (Nat × Nat × Nat) := []
deriving DecidableEq, Repr, Inhabited

/-- What the last config access returned to its requester: nothing, a value, or ALIGN (0x06, R5). -/
inductive Reply where
  | none
  | val (v : Word64)
  | align
deriving DecidableEq, Repr, Inhabited

/-! ### Memory (06_memory.md) -/

/-- Errors in a stored 64-bit word: its flipped cell bits (data in [63:0], check bits in [71:64]), or the check pattern
that always reads as uncorrectable (R203, R204). -/
structure EccMark where
  flips : BitVec 72 := 0
  bad : Bool := false
deriving DecidableEq, Repr, Inhabited

/-- A 64-byte line held in the caches of the package, with poison per 8-byte word (R121, R204); `words` are the words stored to since it was filled or written back, which
a write-back carries (R369). -/
structure Line where
  data : BitVec 512 := 0
  dirty : Bool := false
  words : BitVec 8 := 0
  poison : BitVec 8 := 0
deriving DecidableEq, Repr, Inhabited

/-- The contents a line had before a store, for the cores that last synchronized before it (R124). -/
structure OldText where
  seq : Nat
  line : Nat
  data : BitVec 512
  poison : BitVec 8
deriving DecidableEq, Repr, Inhabited

/-- A page-table entry that a translation cache of the package may hold (R196): `tag` is VA[54:42], VA[54:29] or VA[54:16]. -/
structure TlbEntry where
  tenant : TenantId
  level : Nat
  tag : Nat
  pte : Word64
deriving DecidableEq, Repr, Inhabited

/-- A conversion that runs (R201): the entry whose range it converts, and the direction. -/
structure Conv where
  index : Nat
  entry : Word64
  toRaw : Bool
deriving DecidableEq, Repr, Inhabited

/-! ### Frames between sleds (R208, Table 12.3) -/

/-- The atomic operations (Table 5.9). -/
inductive AmoOp where
  | swap | add | and | or | xor | min | max | cas
deriving DecidableEq, Repr, Inhabited

/-- What a frame of a remote access carries. `pos` is the byte of the destination register the data is for. -/
inductive Payload where
  | rdReq (off len pos : Nat) (va : Word64)
  | rdRsp (pos : Nat) (va : Word64) (bytes : List Byte) (bad : List Bool) (failed : Bool)
  | wr (off : Nat) (bytes : List Byte)
  | wrAck (failed : Bool)
  | amo (op : AmoOp) (off size : Nat) (uns : Bool) (b c : Word64) (va : Word64)
  | amoRsp (old : Word64) (va : Word64) (bad : Bool) (failed : Bool)
deriving DecidableEq, Repr, Inhabited

/-- A frame of a remote access: the core and the operation it belongs to, and the tenant it names. -/
structure Frame where
  src : SledId
  dst : SledId
  core : CoreId
  tenant : TenantId
  id : Nat
  body : Payload
deriving DecidableEq, Repr, Inhabited

/-- A request that a unit of a sled, no core, has sent to another sled (R208): a load's range or a store's bytes, and the tenant it names. A load's data is known when it is
sent, and a store is posted. -/
structure Post where
  dst : SledId
  tenant : TenantId
  body : Payload
deriving DecidableEq, Repr, Inhabited

/-! ### Xehal cores (04_xehal_model.md) -/

/-- Where an operation in flight delivers its result. -/
inductive Dst where
  | none
  | s (n : Nat)
  | w (n : Nat)
  | t (n : Nat)
deriving DecidableEq, Repr, Inhabited

/-- An operation in flight (R112): the bytes it has so far laid over the old register, how a scalar is extended,
the parts still to come from other sleds (position and VA), whether it reaches another sled, the first uncorrectable word met (R114, by
position), and when it issued. -/
structure Flight where
  id : Nat := 0
  dst : Dst := .none
  size : Nat := 0
  signed : Bool := false
  data : BitVec 8192 := 0
  whole : Bool := true
  asks : List (Nat × Word64) := []
  remote : Bool := false
  bad : Option (Nat × Word64) := none
  issued : Nat := 0
deriving DecidableEq, Repr, Inhabited

/-- A SCHED request to a core: since when, the entry the core is reserved for, and whether settle step 1 asks (R237, R255). -/
structure SchedReq where
  since : Nat
  forEntry : Option Nat
  settle : Bool
deriving DecidableEq, Repr, Inhabited

/-- A Xehal core (R104, Table 4.9). s63 and p0 are not stored. `poisonS`, `poisonW`, `poisonT` hold the VA kept for each
poisoned register. `textSeq` numbers the stores that the text it may execute leaves out (R124), and `farSeq` those of each other sled's text. -/
structure Core where
  s : Map Word64 := []
  w : Map (BitVec 2048) := []
  p : Map Word64 := []
  t : Map (BitVec 8192) := []
  poisonS : Map (Option Word64) := []
  poisonW : Map (Option Word64) := []
  poisonT : Map (Option Word64) := []
  pc : Word64 := 0
  state : Word64 := 5
  tvec : Word64 := 0
  epc : Word64 := 0
  ecause : Word64 := 0
  eaddr : Word64 := 0
  estate : Word64 := 0
  kscratch0 : Word64 := 0
  kscratch1 : Word64 := 0
  fpcsr : Word64 := 0
  srseed : Word64 := 0
  srcount : Word64 := 0
  tenant : TenantId := 0
  clkBase : Nat := 0
  textSeq : Nat := 0
  farSeq : Map Nat := []
  flights : List Flight := []
  nextId : Nat := 0
  entry : Option Nat := none
  mask : Option (BitVec 8) := none
  sched : Option SchedReq := none
  reserved : Option Nat := none
  serial : Nat := 0
  halted : Bool := false
deriving DecidableEq, Repr, Inhabited

/-! ### Scheduler (07_scheduler.md) -/

/-- The thread states of Table 7.1. -/
inductive ThreadState where
  | none | ready | running | parked | blocked
deriving DecidableEq, Repr, Inhabited

/-- A slice entry: the thread it holds (R226 to R232), with the PAs latched at the first READY. -/
structure Entry where
  st : ThreadState := .none
  gen : BitVec 8 := 0
  tcb : Nat := 0
  ctx : Nat := 0
  tenant : TenantId := 0
  channel : Nat := 0
  level : Nat := 0
  deadline : Word64 := 0
  wake : Bool := false
  item : Nat := 0
  awaits : Word64 := 0
deriving DecidableEq, Repr, Inhabited

/-- A scheduler slice: its 4,096 entries, the ready list of each channel, and the entry chosen for a victim core. -/
structure Slice where
  entries : Map Entry := []
  lists : Map (List Nat) := []
deriving DecidableEq, Repr, Inhabited

/-! ### Tenants, the Gate and the ledger (03_tenants.md) -/

/-- A fault-log record (Table 3.5). -/
structure FaultRec where
  bellCount : Word64 := 0
  bellTime : Word64 := 0
  addr : Word64 := 0
  code : Byte := 0
  sev : Byte := 0
  source : Byte := 0
  level : Byte := 0
  unit : BitVec 16 := 0
  queue : Byte := 0xFF
  entry : Word32 := 0xFFFFFFFF
  count : Word32 := 1
  detail0 : Word64 := 0
  detail1 : Word64 := 0
deriving DecidableEq, Repr, Inhabited

/-- A tenant on a sled: what is in force (R67, R98, R99), its staged records (R81), whether records were discarded since
the last one written (R82), whether the toll was reached in this tick and in the last one (R87), its reset (R88), whether a reset ran at the last boundary, so that
settle steps 1, 4 and 5 skip the tenant (R97), and the energy of the running tick that the ledger has not yet put in LED_CUR because the last tick is not committed (R86). -/
structure Tenant where
  mode : BitVec 2 := 0
  root : Word64 := 0
  allot : Word32 := 0
  budget : Word32 := 0
  toll : Word32 := 0
  rate : BitVec 3 := 2
  staged : List FaultRec := []
  lost : Bool := false
  tolled : Bool := false
  tolledLast : Bool := false
  resetAt : Option Nat := none
  resetPend : Bool := false
  skip : Bool := false
  ledNext : Nat := 0
deriving DecidableEq, Repr, Inhabited

/-- Where an admitted item stands: queued at its unit, running, stopped at a boundary (carried), or finished. -/
inductive ItemState where
  | queued | running | carried | finished
deriving DecidableEq, Repr, Inhabited

/-- An admitted queue entry (R71): its copy, its HEAD count, the unit it was given to, and its completion status and fault code (R73). -/
structure Item where
  id : Nat := 0
  tenant : TenantId := 0
  queue : Nat := 0
  entry : Word32 := 0
  kind : Byte := 0
  flags : Byte := 0
  cost : Word32 := 0
  compl : Word64 := 0
  payload : BitVec 384 := 0
  charge : Nat := 0
  unit : Nat := 0
  st : ItemState := .queued
  status : Byte := 0
  fault : Byte := 0
deriving DecidableEq, Repr, Inhabited

/-- A command queue as the Gate holds it: HEAD and the last accepted TAIL (R70, R71), whether they have been read from the header since EN was
set (R102), whether the head has stood there since the last settle step 5 (R76), and the entries that a Mirror overrun ended and HEAD has still to pass (Table 3.4). -/
structure Queue where
  head : Word32 := 0
  tail : Word32 := 0
  opened : Bool := false
  atHead : Bool := false
  skip : List Word32 := []
deriving DecidableEq, Repr, Inhabited

/-! ### The Bell (02_bell.md) -/

/-- The tick generator of a node. `startedAt` is the model time of the current tick's boundary; `settle` the next settle
step (7 while step 4 goes on at the Tether, 6 when all are done), `admitted` whether step 5 is done; `work` whether the work window is open; `slew` the offset still to remove (R47); `workNs` the
work-window time of earlier ticks, and `openedAt` when the open work window opened (R373). On a Rack Factor: the count of the last handover while its
slewing is unfinished (R56), BELL_IN's run of good edges, its last accepted edge, its last accepted intervals (R64) and the rejects of the tick (R45, R55), and of PTP whether an Announce was
heard, the servo offset, PTP time less model time, and the runs of good and bad ticks (Table 2.2); `align` is the origin in force (R65). On a sled
`leaseUntil` is the boundary at which the lease of its pair runs out, whichever sled holds it (R395). -/
structure Bell where
  running : Bool := false
  startedAt : Nat := 0
  acc : Nat := 0
  work : Bool := false
  settle : Nat := 6
  admitted : Bool := false
  slew : Int := 0
  resync : Bool := false
  heard : Nat := 0
  absent : Bool := false
  workNs : Nat := 0
  openedAt : Nat := 0
  slewFrom : Option Word64 := none
  inRun : Nat := 0
  lastEdge : Option Nat := none
  inGaps : List Nat := []
  rejTick : Nat := 0
  ptpSeen : Bool := false
  ptpServo : Int := 0
  ptpBase : Option Int := none
  ptpGood : Nat := 0
  ptpBad : Nat := 0
  align : Word64 := 0
  leaseUntil : Option Word64 := none
deriving DecidableEq, Repr, Inhabited

/-! ### Traversal Engines (08_traversal.md, 09_probes.md) -/

/-- A hit held or a candidate (Table 8.7): FP32 fields by their bits. -/
structure Hit where
  kind : Nat := 0
  geom : Nat := 0
  t : Nat := 0
  u : Nat := 0
  v : Nat := 0
  prim : Nat := 0
  inst : Nat := 0xFFFFFFFF
  shader : Nat := 0
deriving DecidableEq, Repr, Inhabited

/-- What a stack entry names (Tables 8.1, 8.2). -/
inductive StKind where
  | node | tri | custom | point | inst
deriving DecidableEq, Repr, Inhabited

/-- A stack entry of a ray: tnear by its FP32 bits. -/
structure StEntry where
  kind : StKind
  va : Nat
  blocks : Nat
  tnear : Nat
deriving DecidableEq, Repr, Inhabited

/-- The instance a ray is below: the stack depth at entry, the ray in object space, and what hits take from it (R271). -/
structure InstSpace where
  base : Nat
  o : List Nat
  d : List Nat
  id : Nat
  shaderOff : Nat
  flags : Nat
deriving DecidableEq, Repr, Inhabited

/-- A suspension for a callback (R277): its kind, the candidate, and the VA of the record once it is written. -/
structure Susp where
  custom : Bool
  cand : Hit
  recVa : Option Nat
deriving DecidableEq, Repr, Inhabited

/-- A ray (R265): its record, its walk, and how it ended. `resume` is a place inside a triangle leaf: block VA, blocks left, triangle. -/
structure Ray where
  o : List Nat := []
  d : List Nat := []
  tmin : Nat := 0
  tmax : Nat := 0
  root : Nat := 0
  rayId : Nat := 0
  mask : Nat := 0
  flags : Nat := 0
  stack : List StEntry := []
  resume : Option (Nat × Nat × Nat) := none
  held : Option Hit := none
  inst : Option InstSpace := none
  susp : Option Susp := none
  ended : Option Nat := none
deriving DecidableEq, Repr, Inhabited

/-- An exact score n / d (R301). -/
structure Score where
  n : Nat
  d : Nat
deriving DecidableEq, Repr, Inhabited

/-- A key held by a probe: its score, the key, the view that gave the score. -/
structure Found where
  score : Score
  key : Nat
  view : Nat
deriving DecidableEq, Repr, Inhabited

/-- A stack entry of a probe. -/
structure PrbEntry where
  leaf : Bool
  va : Nat
  score : Score
deriving DecidableEq, Repr, Inhabited

/-- A probe (R303): its record, the view walked, its stack, H, B and TRUNC, how it ended, and whether its candidate list has been dealt with (R298). -/
structure Probe where
  id : Nat := 0
  k : Nat := 0
  out : Nat := 0
  views : List (Nat × List Nat × Nat) := []
  view : Nat := 0
  started : Bool := false
  stack : List PrbEntry := []
  found : List Found := []
  bound : Score := ⟨1, 1⟩
  trunc : Bool := false
  visits : Nat := 0
  ended : Option Nat := none
  fview : Nat := 0xFF
  listed : Bool := false
deriving DecidableEq, Repr, Inhabited

/-- What a pool slot holds (R259). -/
inductive Job where
  | none
  | ray (r : Ray)
  | probe (p : Probe)
deriving DecidableEq, Repr, Inhabited

/-- The descriptor of a ring and TE_CARAVAN as they stood when work was accepted under them (R285, R310). -/
structure RingDesc where
  base : Word64 := 0
  hdr : Word64 := 0
  cbBase : Word64 := 0
  cbHdr : Word64 := 0
  handle : Word32 := 0
  cbHandle : Word32 := 0
  thresh : Word32 := 0
  caravan : Word32 := 0
deriving DecidableEq, Repr, Inhabited

/-- A pool slot: the GEN of its handles (R278), its queue and sequence number (R273), the item it is work of (R282), since when it waits,
whether it was accepted in order (R416), the descriptor in force for it (R285), and whether it waits for ring room (R274). -/
structure PoolSlot where
  gen : BitVec 8 := 0
  job : Job := .none
  queue : Nat := 0
  seq : Word32 := 0
  item : Nat := 0
  since : Nat := 0
  ord : Bool := false
  desc : RingDesc := {}
  waits : Bool := false
deriving DecidableEq, Repr, Inhabited

/-- A hit queue or result queue (R273 to R276): the next sequence number, TAIL, the sequence numbers written beyond TAIL, the records
written since the last event, and TAIL of the callback ring. -/
structure Ring where
  seq : Word32 := 0
  tail : Word32 := 0
  ahead : List Word32 := []
  since : Nat := 0
  cbTail : Word32 := 0
deriving DecidableEq, Repr, Inhabited

/-- A Traversal Engine: its holder (R257, R258), its pool, its hit queues and its result queues, and the tree blocks its node cache holds, by sled-local offset in
128-byte units (R258, R289). -/
structure Engine where
  holder : Option TenantId := none
  draining : Bool := false
  slots : Map PoolSlot := []
  hqs : Map Ring := []
  rqs : Map Ring := []
  nodes : Map (Option (BitVec 1024)) := []
deriving DecidableEq, Repr, Inhabited

/-! ### Units left out at start-up (15_startup.md R481, R482) -/

/-- The units start-up found failed or left out: healthy cores per die, dies disabled, and one bit per failed unit. -/
structure Units where
  cores : Map Nat := [(0, 48), (1, 48)]
  dieOff : BitVec 2 := 0
  te : BitVec 16 := 0
  rfe : BitVec 2 := 0
  porter : BitVec 2 := 0
  depot : BitVec 512 := 0
  bank : BitVec 512 := 0
  stack : BitVec 8 := 0
deriving DecidableEq, Repr, Inhabited

/-! ### Porter (06_memory.md) -/

/-- A Porter entry that runs (R210 to R213): where each byte of the copy is read and written, as (byte index, PA, length), the order, the
bytes moved, what a staged copy has read, and how it ends. -/
structure PorterRun where
  item : Nat
  src : List (Nat × Nat × Nat) := []
  dst : List (Nat × Nat × Nat) := []
  fill : Option Word64 := none
  total : Nat := 0
  down : Bool := false
  moved : Nat := 0
  stagedCopy : Option (List Byte × List Bool) := none
  counted : Bool := false
  status : Byte := 0
  fault : Byte := 0
deriving DecidableEq, Repr, Inhabited

/-! ### Depots (11_depots.md) -/

/-- A window of a kernel (R351, R352): how it is accessed, and its bytes as (window offset, sled-local offset, length). -/
structure Window where
  share : Bool
  write : Bool
  len : Nat
  parts : List (Nat × Nat × Nat)
deriving DecidableEq, Repr, Inhabited

/-- A kernel on a Depot (R353, R364): its launch and index, what its window check found (a status of Table 11.6 with the fault's
record), its registers, and its progress. -/
structure Kernel where
  launch : Nat := 0
  index : Nat := 0
  tenant : TenantId := 0
  item : Nat := 0
  code : List Word32 := []
  wins : List Window := []
  check : Nat := 0
  checkFault : Byte := 0
  checkRec : Option FaultRec := none
  started : Bool := false
  v : Map (BitVec 256) := []
  a : Map Word32 := []
  ip : Nat := 0
  last : Nat := 0
  count : Nat := 0
  idle : Nat := 0
  retired : Option Nat := none
  waitSend : Bool := false
  waitRecv : Bool := false
deriving DecidableEq, Repr, Inhabited

/-- A Footpath message (Table 11.3), with its sender's index in the launch. -/
structure Msg where
  dest : Nat
  src : Nat
  tenant : TenantId
  launch : Nat
  tag : Byte
  index : Nat
  payload : BitVec 256
deriving DecidableEq, Repr, Inhabited

/-- A Depot: its queue of kernels, the running one first, and its inbox, oldest first (R349). -/
structure Depot where
  queue : List Kernel := []
  inbox : List Msg := []
deriving DecidableEq, Repr, Inhabited

/-- A launch with kernels still to end (R366): its status area, its handle, and the first fault code met. -/
structure Launch where
  serial : Nat
  tenant : TenantId
  first : Nat
  count : Nat
  item : Nat
  viaEntry : Bool
  status : Nat
  handle : Word32
  left : Nat
  fault : Byte := 0
deriving DecidableEq, Repr, Inhabited

/-! ### Raster Front Ends (10_raster.md) -/

/-- A triangle binned by VIS or FRAG (R325): draw and primitive, and three vertices in normalized order: window x and y in 1/256 pixel, and
z by its FP32 bits. -/
structure RTri where
  draw : Nat
  prim : Nat
  xs : List Int
  ys : List Int
  zs : List Nat
deriving DecidableEq, Repr, Inhabited

/-- What an entry of a Raster Front End works at: it bins chunks, resolves the bins of a flush or the last bins tile by tile, ends VIS tile by tile (R336), lists the fragments of the
tiles, or writes them. -/
inductive RPhase where
  | bin | flush | last | colour | list | write
deriving DecidableEq, Repr, Inhabited

/-- A RASTER entry that has started (R326 to R331): the descriptor bytes it read, where its walk of the draws stands (draw, vertex position,
vertices of the strip so far, primitive), what is binned, the draws' state blocks, and whether it waits for bin memory and how it was answered
(`some true` for FLUSH). `phase` says what it works at and `tile` which tile comes next (Table 10.1, R341); `need` is what the next chunk takes of bin memory, `off` where
the fragment records lie, `listed` whether a draw has been listed in full (R331), `frags` the records of the tiles so far, `seen` the samples that VIS counts. -/
structure RfeProg where
  item : Nat := 0
  desc : List Byte := []
  draw : Nat := 0
  pos : Nat := 0
  win : List Nat := []
  prim : Nat := 0
  tris : List RTri := []
  blocks : List (Nat × List Byte) := []
  fault : Byte := 0
  resid : Nat := 0
  flushes : Nat := 0
  used : Nat := 0
  whole : Nat := 0
  waiting : Bool := false
  answer : Option Bool := none
  phase : RPhase := .bin
  tile : Nat := 0
  need : Option Nat := none
  off : Option Nat := none
  listed : Bool := false
  frags : List (List (List Byte)) := []
  seen : Nat := 0
deriving DecidableEq, Repr, Inhabited

/-- A Raster Front End: the item that runs, since when, and the entries that have started. -/
structure Rfe where
  cur : Option Nat := none
  since : Nat := 0
  progs : List RfeProg := []
deriving DecidableEq, Repr, Inhabited

/-- A surface presented (R347): its VA, FORMAT and PITCH. -/
structure Shown where
  va : Word64
  fmt : Nat
  pitch : Nat
deriving DecidableEq, Repr, Inhabited

/-- The compositor output (R345): STRIDE and PHASE in force, the surface presented since the last presentation boundary, the surface being output, and the Bell count of
that boundary. -/
structure Compositor where
  stride : Word32 := 1
  presented : Option Shown := none
  out : Option Shown := none
  done : Option Word64 := none
deriving DecidableEq, Repr, Inhabited

/-! ### Twins and the rack (12_twins_rack.md) -/

/-- The contents of a 64 KiB page: its bytes, and its words that read uncorrectable. -/
structure PageData where
  bytes : List Byte
  bad : List Nat
deriving DecidableEq, Repr, Inhabited

/-- The tenant control snapshot (R385): slice entries as (die, index, entry) with the READY ones in the order of their lists, admitted and carried
items with the held state of their work (kernels by Depot, launches, Porter runs by die, RASTER entries by RFE, pool slots and rings by engine index), and AGE by queue. -/
structure Snap where
  threads : List (Nat × Nat × Entry) := []
  items : List Item := []
  carried : List Nat := []
  kernels : List (Nat × List Kernel) := []
  inboxes : List (Nat × List Msg) := []
  launches : List Launch := []
  porters : List (Nat × PorterRun) := []
  rasters : List (Nat × List RfeProg) := []
  slots : List (Nat × Nat × PoolSlot) := []
  rings : List (Nat × Bool × Nat × Ring) := []
  ages : List (Nat × Nat) := []
deriving DecidableEq, Repr, Inhabited

/-- A MIRROR line as it was before its first write-back in the tick (R390). -/
structure UndoLine where
  tenant : TenantId
  line : Nat
  data : BitVec 512
  poison : BitVec 8
deriving DecidableEq, Repr, Inhabited

/-- What the twins told each other at step 4c (R393): D, the items that overran as (queue, HEAD count), whether the undo log was full at step 1 (R390), and TWN_HWERR. -/
structure DigestMsg where
  d : Nat
  overran : List (Nat × Word32)
  full : Bool
  hwerr : Nat
deriving DecidableEq, Repr, Inhabited

/-- A tenant's twin state on a sled (R385 to R400). `dirty` holds the HOME pages written back and not yet committed at the twin, `backs`
the pages or lines written back in the tick, `sending` the pages of the send under way and `unsent` those of them that the Tether has still to carry (R389); `resilver` the pages
written since they were copied (R406); `old` and `replica` are the journal and the snapshot of the replica held here. -/
structure TwinT where
  snap : Option Snap := none
  dirty : List Nat := []
  backs : List Nat := []
  sending : Option (List Nat) := none
  unsent : List Nat := []
  old : List (Nat × PageData) := []
  newSnap : Option Snap := none
  replica : Option Snap := none
  mine : Option DigestMsg := none
  theirs : Option DigestMsg := none
  firstMiss : Option (Nat × Nat) := none
  overran : List (Nat × Word32) := []
  full : Bool := false
  waiting : Bool := false
  resilver : Option (List Nat) := none
  pairing : Bool := false
  held : Bool := false
  stopped : Bool := false
  unplaced : Bool := false
deriving DecidableEq, Repr, Inhabited

/-- A Tether end (R381): when it last received a valid frame and last sent one, and the trainings that failed. -/
structure Tether where
  heard : Nat := 0
  sent : Nat := 0
  fails : Nat := 0
deriving DecidableEq, Repr, Inhabited

/-- What a node reports on its console and on the management path. -/
inductive Report where
  /-- An enabled event bit of BEL_EVENT or PWR_EVENT. -/
  | bell (bit : Nat)
  | power (bit : Nat)
  | noService
  /-- RECOVERY: 1 for a flash that R474 refuses, 2 for no valid slot (R475). -/
  | recovery (reason : Nat)
  | fuseRow (row : Nat)
  | rackSimplex
  | rackNoService
  | rfCopyLost
  | stop
  | lineDead (line : SerialLine)
  | lineLive (line : SerialLine)
  | courierDrive
  | courierIsolated (s : SledId)
  | courierRackFault
  | flashRefused
  | logRefused
  | tenantLost (t : TenantId)
  | twin (bit : Nat)
deriving DecidableEq, Repr

/-- What a management or Tether frame carries (Table 12.3). -/
inductive MailBody where
  | ack (count : Word64)
  | event (r : Report)
  | dying
  | join (m : JoinMsg)
  | cfg (config : Bool) (key : Option (BitVec 256))
  | page (t : TenantId) (page : Nat) (data : PageData)
  | snap (t : TenantId) (s : Snap)
  | commit (t : TenantId)
  | digest (t : TenantId) (m : DigestMsg)
  | resilver (t : TenantId) (page : Nat) (data : PageData)
deriving DecidableEq, Repr

/-- A frame under way between nodes. -/
structure Mail where
  src : Node
  dst : Node
  body : MailBody
deriving DecidableEq, Repr

/-! ### Power (13_power.md) -/

/-- The stages of a sled's supplies (R418 to R424): whether the last samples lay beyond a threshold (input < 44.0, < 42.0, > 60.0; 12 V < 11.0; VPP < 1.75, > 1.85),
since when the exit conditions of Warn and of Guard have held, the run of samples below 40.0 V, whether the tick is already counted in PWR_WARN_TICKS, since when a
stopped sled's input has been good, when the last sample was taken, the Bell count at whose settle a declared Stop ends the sled, the package energy in nJ of the last 1,000 ledger steps, and the core supply of the compute dies in mV (R425). -/
structure Power where
  below44 : Bool := false
  below42 : Bool := false
  above60 : Bool := false
  low12 : Bool := false
  lowVpp : Bool := false
  highVpp : Bool := false
  warnOk : Option Nat := none
  guardOk : Option Nat := none
  stopRun : Nat := 0
  warnCounted : Bool := false
  goodSince : Option Nat := none
  lastSample : Option Nat := none
  stopAfter : Option Word64 := none
  pkg : List Nat := []
  coreMv : Nat := 0
deriving DecidableEq, Repr, Inhabited

/-! ### Console and Courier line (14_courier.md) -/

/-- A Factor's console: the RX FIFO's entries (Table 14.6) and the TX FIFO's characters, oldest first; whether RTS is deasserted, CTS as last sampled, the flags of
CSL_STATUS that no time decides, until when a character and a break are on the line, when a break that was asked for begins, the levels of the last character sent, in half bit
times, and whether TX_EMPTY is still to be raised. -/
structure Console where
  rx : List Word32 := []
  tx : List (BitVec 9) := []
  rtsOff : Bool := false
  cts : Bool := false
  cfgBad : Bool := false
  dead : Bool := false
  busyTill : Nat := 0
  brkTill : Nat := 0
  brkAt : Option Nat := none
  sent : List Bool := []
  drain : Bool := false
deriving DecidableEq, Repr, Inhabited

/-- A frame a Courier node has to send: its bytes from DST on (DST, TYPE, SEQ, LEN, payload), its collisions, the backoff drawn, how often it was sent, and when
it ended if an ACK is awaited. -/
structure CurTx where
  bytes : List Byte
  collisions : Nat := 0
  backoff : Nat := 0
  tries : Nat := 0
  waitsFrom : Option Nat := none
deriving DecidableEq, Repr, Inhabited

/-- A Courier block: the frames to send, the responses the hardware owes, whether a response (true) or a frame is being driven, the characters of a frame being received, the RX buffers that hold an unread frame,
the SEQ last accepted from each sender, the LFSR (0 before the first draw stands for the seed), the flags of CUR_STATUS, since when the line has been idle, until when the node drives it, and the
bytes of the frame it sent last. -/
structure Courier where
  tx : List CurTx := []
  resp : List CurTx := []
  driving : Option Bool := none
  partRx : List Byte := []
  full : BitVec 4 := 0
  lastSeq : Map (Option Byte) := []
  lfsr : BitVec 16 := 0
  driveFail : Bool := false
  dead : Bool := false
  idleFrom : Nat := 0
  busyTill : Nat := 0
  sent : List Byte := []
deriving DecidableEq, Repr, Inhabited

/-- The two serial interfaces of a Factor. -/
structure Serial where
  console : Console := {}
  courier : Courier := {}
deriving DecidableEq, Repr, Inhabited

/-! ### Fuses, flash and start-up (15_startup.md) -/

/-- A fuse request that runs or is interrupted (R479): its row, the bits still to blow, the pulses the first of them has had, when the running pulse began, whether Guard cut
it, whether a bit has failed, and the bits of the next row that follow (R478). -/
structure FuseReq where
  row : Nat
  bits : List Nat
  pulses : Nat := 0
  began : Nat := 0
  cut : Bool := false
  failed : Bool := false
  more : List Nat := []
deriving DecidableEq, Repr, Inhabited

/-- What a sled keeps without power: the fuse bits blown since manufacture, the flash bytes written since, the flash status and configuration registers, each tenant's persisted LED_TOTAL,
and the bytes of the persisted event log. -/
structure NonVol where
  blown : Map Word32 := []
  flash : Map (Option Byte) := []
  flashSr : Byte := 0
  flashCr : Byte := 0
  totals : Map (Option Word64) := []
  logged : Nat := 0
deriving DecidableEq, Repr, Inhabited

/-- The image a sled runs (R475, R478): its ROLLBACK and firmware version, and since which Bell count it has run IN_SERVICE; the event log held in RAM, and the
entries of it discarded (R428), when it last sent JOIN (R472), the digest of the configuration it holds (R402), whether the flash controller's status shows a refused write (R426),
and what start-up found in a sled that waits before step 5 (R471). -/
structure Boot where
  rollback : Nat := 0
  fwMajor : BitVec 8 := 0
  fwMinor : BitVec 8 := 0
  since : Option Word64 := none
  logHeld : Nat := 0
  logLost : Nat := 0
  joinAt : Nat := 0
  digest : BitVec 384 := 0
  flashRefused : Bool := false
  waits : Option SelfTest := none
deriving DecidableEq, Repr, Inhabited

/-- The TAP of a sled (R511): the register its instruction puts between TDI and TDO, what that register captured, the cells preloaded, and whether the pins
are driven from them. -/
structure Tap where
  captured : List Bool := []
  cells : List Bool := []
  driving : Bool := false
deriving DecidableEq, Repr, Inhabited

/-! ### Ports (16_outside.md) -/

/-- A ring of a data port: HEAD, and whether a fault stalled it (R503). -/
structure DpRing where
  head : Word32 := 0
  opened : Bool := false
  stalled : Bool := false
deriving DecidableEq, Repr, Inhabited

/-- A data port: the binding in force (TWN_RK_DP_CTL and the four addresses), its rings, whether frames were dropped since the last delivered one, and the frame sent last. -/
structure DataPort where
  ctl : Word32 := 0
  rxRing : Word64 := 0
  rxHdr : Word64 := 0
  txRing : Word64 := 0
  txHdr : Word64 := 0
  rx : DpRing := {}
  tx : DpRing := {}
  dropped : Bool := false
  sent : List Byte := []
deriving DecidableEq, Repr, Inhabited

/-- A frame a video port sends (R506, R507): the sled and tenant whose surface it reads (none for black), the settings it started with, the packets sent of it, its
RTP timestamp, its reference time, and TFRAME in ns as a fraction. -/
structure VidFrame where
  sled : SledId
  tenant : TenantId
  shown : Option Shown
  ctl : Word32
  raster : Word32
  sent : Nat := 0
  ts : Word32 := 0
  ref : Nat := 0
  tframe : Nat := 0
  den : Nat := 1
deriving DecidableEq, Repr, Inhabited

/-- A video port: its link, the frame being sent, the next RTP extended sequence number, the last offset measured from PTP, the last packet sent with its destination MAC, and the ARP answers it sent. -/
structure VideoPort where
  down : Bool := false
  frame : Option VidFrame := none
  seq : Word32 := 0
  ptpOff : Int := 0
  packet : List Byte := []
  mac : BitVec 48 := 0
  arps : Nat := 0
deriving DecidableEq, Repr, Inhabited

/-! ### The whole machine -/

/-- A compute sled. `counts` are the events of Table 13.4 by tenant, 64 for the system, and `fracs` their energy below 1 nJ, in fJ. `clk` counts thousandths of a core clock up to model time `clkAt`; `ended` says that it stopped under R422 or R423,
`cfgMismatch` that a protected range was refused (R407), `cfgWaits` that a pushed configuration waits for the epoch boundary (R412); `writing` is the non-volatile write it started last (R427), and `posts` are the requests of its units to other sleds that the fabric has
still to carry. -/
structure Sled where
  cfg : CfgSpace := {}
  freeCtr : Nat := 0
  clk : Nat := 0
  clkAt : Nat := 0
  mem : Map Byte := []
  ecc : Map EccMark := []
  cache : Map (Option Line) := []
  oldText : List OldText := []
  textSeq : Nat := 0
  tlb : List TlbEntry := []
  convs : List Conv := []
  scrub : Nat := 0
  cores : Map Core := []
  slices : Map Slice := []
  tenants : Map Tenant := []
  queues : Map Queue := []
  items : List Item := []
  nextItem : Nat := 0
  carried : List Nat := []
  bell : Bell := {}
  engines : Map Engine := []
  counts : Map Nat := []
  fracs : Map Nat := []
  units : Units := {}
  porters : Map (Option PorterRun) := []
  depots : Map Depot := []
  launches : List Launch := []
  nextLaunch : Nat := 0
  footpath : List Msg := []
  rfes : Map Rfe := []
  compositor : Compositor := {}
  undo : List UndoLine := []
  twins : Map TwinT := []
  tether : Tether := {}
  reservedFrames : Nat := 0
  ended : Bool := false
  cfgMismatch : Bool := false
  cfgWaits : Bool := false
  power : Power := {}
  serial : Serial := {}
  nv : NonVol := {}
  fuse : Option FuseReq := none
  boot : Boot := {}
  tap : Tap := {}
  writing : Option NvWrite := none
  posts : List Post := []
deriving DecidableEq, Repr, Inhabited

/-- The rack state that the active Rack Factor holds and the standby copies (R19): the isolated Route fabric ports, the drains asked for (R405), the
Bell count each sled last acknowledged, the sleds whose ACK is late and whose PONG is awaited (R398), what each joining sled sent, the sleds that await a
verdict and the Bell count at which their twin must have acknowledged (R396), whether the first boundary has been (R473), the event records received, when the PING to each late sled
ended (R398), and the port board (R496). -/
structure Rack where
  isolated : BitVec 16 := 0
  drains : BitVec 16 := 0
  acked : Map (Option Word64) := []
  late : BitVec 16 := 0
  joins : Map (Option JoinMsg) := []
  awaits : Map (Option Word64) := []
  started : Bool := false
  events : List (Node × Report) := []
  pings : Map (Option Nat) := []
  ports : Map DataPort := []
  videos : Map VideoPort := []
deriving DecidableEq, Repr, Inhabited

/-- A Rack Factor. `up` says that it is booted and in service, `bootAt` and `activeAt` when it booted and became active (R473), `copyGot` whether the state copy of this tick came, `missed` at how many consecutive settles it did not, `asked` that its Courier query of the active one is queued or sent, `askedEnd` when that query ended, `peer` whether the last PONG of the other one showed it active (R473), and `copy` the rack state of the
last copy (R19, R403). -/
structure RackFactor where
  cfg : CfgSpace := {}
  freeCtr : Nat := 0
  bell : Bell := {}
  up : Bool := false
  bootAt : Nat := 0
  activeAt : Nat := 0
  copyGot : Bool := false
  missed : Nat := 0
  asked : Bool := false
  askedEnd : Option Nat := none
  peer : Bool := false
  copy : Rack := {}
  serial : Serial := {}
deriving DecidableEq, Repr, Inhabited

/-- The rack: the commands that wait (first in, first out), the time since power was applied in ns, the last config reply,
the sleds by slot, the Rack Factors (A is 0), the frames under way, oldest first: those of remote accesses, and all others; the rack state, and the reports
made on consoles and the management path. -/
structure State where
  pending : List Instr := []
  now : Nat := 0
  reply : Reply := .none
  sleds : Map Sled := []
  rfs : Map RackFactor := []
  fabric : List Frame := []
  mail : List Mail := []
  rack : Rack := {}
  reports : List (Node × Report) := []
deriving DecidableEq, Repr, Inhabited

/-- Why the machine stops with a fault: never, since every fault of the spec is a state the machine goes on from. -/
inductive Fault where
  /-- Raised by nothing: the spec names no event that stops the machine. Safe. -/
  | none
deriving DecidableEq, Repr

/-- Why a command is refused. -/
inductive Refusal where
  /-- Raised by exec for a command with no meaning yet. Safe: nothing is claimed of it. -/
  | notModelled (mnemonic : String)
deriving DecidableEq, Repr

/-- The machine right after reset: no command waits, and every table is at its reset value. -/
def State.reset : State := {}

end Sys2Proof.Machine
end

