-- ==== Sys2Proof/Machine/Ops.lean ====
section
/-! DEFINITION. Named operations over the state that every family shares: sleds, registers, counters, time. -/
namespace Sys2Proof.Machine

/-- Where an operation acts: its sled, the model time in ns, what a load of another sled's memory finds (none where it fails, R209), how many stores the
text of each sled has had, and what cores of other sleds leave out of this one's text (R124). -/
structure Ctx where
  sl : SledId
  now : Nat
  far : Nat → Nat → Option (List Byte × List Bool)
  marks : Nat → Nat
  lows : List Nat

/-- Sled `sl`. -/
def State.sled (s : State) (sl : SledId) : Sled := mget s.sleds sl
/-- Replace sled `sl`. -/
def State.setSled (s : State) (sl : SledId) (d : Sled) : State := { s with sleds := mset s.sleds sl d }
/-- Rack Factor `b`. -/
def State.rf (s : State) (b : RfId) : RackFactor := mget s.rfs b
/-- Replace Rack Factor `b`. -/
def State.setRf (s : State) (b : RfId) (r : RackFactor) : State := { s with rfs := mset s.rfs b r }

/-! ### Bit fields -/

/-- Bits [hi:lo] of a word as a number. -/
def fld {w : Nat} (v : BitVec w) (hi lo : Nat) : Nat := v.toNat / 2 ^ lo % 2 ^ (hi + 1 - lo)
/-- Bit `i` of a word. -/
def bit {w : Nat} (v : BitVec w) (i : Nat) : Bool := v.getLsbD i
/-- `v` with bits [hi:lo] set to `x`. -/
def setFld {w : Nat} (v : BitVec w) (hi lo x : Nat) : BitVec w :=
  let m := BitVec.ofNat w ((2 ^ (hi + 1 - lo) - 1) * 2 ^ lo)
  (v &&& ~~~m) ||| (BitVec.ofNat w (x * 2 ^ lo) &&& m)
/-- `v` with bit `i` set to `b`. -/
def setBit {w : Nat} (v : BitVec w) (i : Nat) (b : Bool) : BitVec w := setFld v i i (if b then 1 else 0)

/-! ### Registers -/

/-- The 32-bit half of a register's reset value. -/
def resetHalf (r : Reg) (i j : Nat) (hi : Bool) : Word32 := BitVec.ofNat 32 (if hi then regReset r i j / 2 ^ 32 else regReset r i j)

/-- One word of register (i, j). -/
def CfgSpace.half (c : CfgSpace) (r : Reg) (i j : Nat) (hi : Bool) : Word32 :=
  mgetD (resetHalf r i j hi) c.words (regOff r i j + if hi then 4 else 0)

/-- Store one word of register (i, j). -/
def CfgSpace.setHalf (c : CfgSpace) (r : Reg) (i j : Nat) (hi : Bool) (v : Word32) : CfgSpace :=
  { c with words := msetD (resetHalf r i j hi) c.words (regOff r i j + if hi then 4 else 0) v }

/-- A 32-bit register. -/
def CfgSpace.r32 (c : CfgSpace) (r : Reg) (i j : Nat := 0) : Word32 := c.half r i j false
/-- A 64-bit register. -/
def CfgSpace.r64 (c : CfgSpace) (r : Reg) (i j : Nat := 0) : Word64 := c.half r i j true ++ c.half r i j false
/-- Store a 32-bit register. -/
def CfgSpace.w32 (c : CfgSpace) (r : Reg) (v : Word32) (i j : Nat := 0) : CfgSpace := c.setHalf r i j false v
/-- Store a 64-bit register. -/
def CfgSpace.w64 (c : CfgSpace) (r : Reg) (v : Word64) (i j : Nat := 0) : CfgSpace :=
  (c.setHalf r i j false (v.truncate 32)).setHalf r i j true ((v >>> 32).truncate 32)

/-- Hardware sets a W1C bit at time `now` (R14). -/
def CfgSpace.raiseBit (c : CfgSpace) (now : Nat) (r : Reg) (k : Nat) : CfgSpace :=
  { c.w32 r (setFld (c.r32 r) k k 1) with raised := (regOff r 0 0, k, now) :: c.raised.filter fun e => decide (e.2.2 = now) }
/-- The bits of the W1C register at an offset that hardware set in the cycle `now` (R14). -/
def CfgSpace.raisedAt (c : CfgSpace) (now off : Nat) : Word64 :=
  c.raised.foldl (fun a e => if e.1 = off ∧ e.2.2 = now then a ||| BitVec.ofNat 64 (2 ^ e.2.1) else a) 0

/-- A 32-bit register of a sled. -/
def Sled.r32 (d : Sled) (r : Reg) (i j : Nat := 0) : Word32 := d.cfg.r32 r i j
/-- A 64-bit register of a sled. -/
def Sled.r64 (d : Sled) (r : Reg) (i j : Nat := 0) : Word64 := d.cfg.r64 r i j
/-- Store a 32-bit register of a sled. -/
def Sled.w32 (d : Sled) (r : Reg) (v : Word32) (i j : Nat := 0) : Sled := { d with cfg := d.cfg.w32 r v i j }
/-- Store a 64-bit register of a sled. -/
def Sled.w64 (d : Sled) (r : Reg) (v : Word64) (i j : Nat := 0) : Sled := { d with cfg := d.cfg.w64 r v i j }
/-- A 32-bit register of a Rack Factor. -/
def RackFactor.r32 (d : RackFactor) (r : Reg) (i j : Nat := 0) : Word32 := d.cfg.r32 r i j
/-- A 64-bit register of a Rack Factor. -/
def RackFactor.r64 (d : RackFactor) (r : Reg) (i j : Nat := 0) : Word64 := d.cfg.r64 r i j
/-- Store a 32-bit register of a Rack Factor. -/
def RackFactor.w32 (d : RackFactor) (r : Reg) (v : Word32) (i j : Nat := 0) : RackFactor := { d with cfg := d.cfg.w32 r v i j }
/-- Store a 64-bit register of a Rack Factor. -/
def RackFactor.w64 (d : RackFactor) (r : Reg) (v : Word64) (i j : Nat := 0) : RackFactor := { d with cfg := d.cfg.w64 r v i j }

/-- Advance a 32-bit counter, saturating at 2^32 - 1. -/
def Sled.bump32 (d : Sled) (r : Reg) (i j : Nat := 0) (n : Nat := 1) : Sled :=
  d.w32 r (BitVec.ofNat 32 (min ((d.r32 r i j).toNat + n) (2 ^ 32 - 1))) i j
/-- Advance a 64-bit counter, saturating at 2^64 - 1. -/
def Sled.bump64 (d : Sled) (r : Reg) (i j : Nat := 0) (n : Nat := 1) : Sled :=
  d.w64 r (BitVec.ofNat 64 (min ((d.r64 r i j).toNat + n) (2 ^ 64 - 1))) i j
/-- Set one bit of a 32-bit register. -/
def Sled.setRegBit (d : Sled) (r : Reg) (k : Nat) (b : Bool) (i j : Nat := 0) : Sled := d.w32 r (setBit (d.r32 r i j) k b) i j
/-- Set one bit of a 32-bit register of a Rack Factor. -/
def RackFactor.setRegBit (d : RackFactor) (r : Reg) (k : Nat) (b : Bool) (i j : Nat := 0) : RackFactor :=
  d.w32 r (setBit (d.r32 r i j) k b) i j

/-- The core clocks a sled has counted: ns times MHz are thousandths of a clock. -/
def Sled.clock (x : Ctx) (d : Sled) : Nat := (d.clk + (x.now - d.clkAt) * (d.r32 .pwrClk).toNat) / 1000

/-- A timed event happens when its time has come: model time moves up to `t` (DESIGN CHOICE, log 1). -/
def State.upTo (s : State) (t : Nat) : State := { s with now := max s.now t }

/-- Count one use of a free value. -/
def Sled.stepFree (d : Sled) : Sled := { d with freeCtr := d.freeCtr + 1 }

/-! ### Bytes, little-endian (R2) -/

/-- `n` bytes of a word from its low end. -/
def toBytes {w : Nat} (v : BitVec w) (n : Nat) : List Byte := (List.range n).map fun k => v.extractLsb' (8 * k) 8
/-- The number that bytes spell. -/
def bytesNat (bs : List Byte) : Nat := bs.foldr (fun b a => b.toNat + 256 * a) 0
/-- The word that bytes spell. -/
def ofBytes (w : Nat) (bs : List Byte) : BitVec w := BitVec.ofNat w (bytesNat bs)

/-- An idle nanosecond. -/
def idle (s : State) : State := { s with now := s.now + 1 }

end Sys2Proof.Machine
end

