-- ==== Sys2Proof/Machine/Mem.lean ====
section
/-! DEFINITION. A sled's memory: its map (Table 6.1), ECC (R203 to R205), the coherent caches (R121, R204) and the text old stores left behind (R124). -/
namespace Sys2Proof.Machine

/-! ### The physical map -/

/-- The classes of the physical map (Table 6.1, Table 6.5). -/
inductive Class where
  | interleaved | localEcc | localRaw | device | hole
deriving DecidableEq, Repr

/-- X in bytes: the interleave share of each bank set (Table 6.11). -/
def Sled.share (d : Sled) : Nat := 2 ^ 20 * ((d.r32 .regSplit).toNat % 64 * 16)

/-- The class of a sled-local offset by Table 6.1 alone, for share `x`: local space counts as Local-ECC. -/
def tableClass (x off : Nat) : Class :=
  if off < 512 * x then .interleaved
  else if off < 0x010000000000 then .hole
  else if off < 0x018000000000 then (if off % 0x40000000 < 576 * 2 ^ 20 - x then .localEcc else .hole)
  else if 0x7FFFFC000000 ≤ off ∧ off < 0x800000000000 then .device
  else .hole

/-- The valid region entries (Table 6.13). -/
def Sled.regions (d : Sled) : List Word64 :=
  (d.cfg.words.filterMap fun e =>
    if 0x481000 ≤ e.1 ∧ e.1 < 0x483000 ∧ e.1 % 8 = 0 then some (d.r64 .regEntry ((e.1 - 0x481000) / 8)) else none).filter
    fun e => bit e 0

/-- The bank set of an offset of local space. -/
def localBank (off : Nat) : Nat := (off - 0x010000000000) / 0x40000000 % 512

/-- The range of a region entry holds this offset: it lies in local space. -/
def inRegion (e : Word64) (off : Nat) : Bool :=
  decide (0x010000000000 ≤ off ∧ off < 0x018000000000 ∧ localBank off = fld e 40 32 ∧ 2 ^ 20 * fld e 21 12 ≤ off % 0x40000000 ∧ off % 0x40000000 < 2 ^ 20 * (fld e 21 12 + fld e 31 22))

/-- The pool stacks in ascending order: those not left out (R482). -/
def Sled.healthyStacks (d : Sled) : List Nat := (List.range 8).filter fun k => !bit d.units.stack k

/-- g: the largest power of two not above the number of pool stacks (R482). -/
def Sled.poolStacks (d : Sled) : Nat :=
  let h := d.healthyStacks.length
  if 8 ≤ h then 8 else if 4 ≤ h then 4 else if 2 ≤ h then 2 else h

/-- An offset of local space is Local-Raw: a valid entry holds it, and a range under conversion keeps its old class until the conversion ends (R200, R201, R378). -/
def Sled.rawAt (d : Sled) (off : Nat) : Bool :=
  match d.convs.find? fun c => inRegion c.entry off with
  | some c => !c.toRaw
  | none => d.regions.any (inRegion · off)

/-- The class of a sled's own offset (R187, R199, R200). -/
def Sled.class (d : Sled) (off : Nat) : Class :=
  match tableClass d.share off with
  | .interleaved => if off < 64 * d.share * d.poolStacks then .interleaved else .hole
  | .localEcc => if bit d.units.bank (localBank off) then .hole else if d.rawAt off then .localRaw else .localEcc
  | c => c

/-- Where a PA leads from this sled (R186, R187). -/
inductive Target where
  | mem (off : Nat)
  | device (off : Nat)
  | farMem (s : SledId) (off : Nat)
  | farDevice (s : SledId) (off : Nat)
  | hole
deriving DecidableEq, Repr

/-- The sled number as a slot. -/
def sledOf (n : Nat) : SledId := Fin.ofNat 16 n

/-- Classify a PA (R187). -/
def Sled.target (x : Ctx) (d : Sled) (pa : Nat) : Target :=
  let n := pa / 2 ^ 47
  let off := pa % 2 ^ 47
  if n = x.sl.val then
    match d.class off with
    | .hole => .hole
    | .device => .device (off - 0x7FFFFC000000)
    | _ => .mem off
  else if 16 ≤ n then .hole
  else
    match tableClass d.share off with
    | .hole => .hole
    | .device => .farDevice (sledOf n) (off - 0x7FFFFC000000)
    | _ => .farMem (sledOf n) off

/-- A queued or running kernel's RAW window covers part of an entry's range: its conversion is held (R378). -/
def Sled.kernelIn (d : Sled) (e : Word64) : Bool :=
  d.depots.any fun p => p.2.queue.any fun k => k.wins.any fun w => !w.share && w.parts.any fun q =>
    let lo := 0x010000000000 + 2 ^ 30 * fld e 40 32 + 2 ^ 20 * fld e 21 12
    decide (q.2.1 < lo + 2 ^ 20 * fld e 31 22 ∧ lo < q.2.1 + q.2.2)

/-- A conversion runs over this offset: accesses to it stall (R201). One that a kernel holds has not started (R378). -/
def Sled.converting (d : Sled) (off : Nat) : Bool := d.convs.any fun c => inRegion c.entry off && !d.kernelIn c.entry

/-- The end of one conversion: a range made Local-ECC is zero with valid check bits, a range made Local-Raw keeps its bits (R201). -/
def Sled.endConv (d : Sled) (c : Conv) : Sled :=
  if c.toRaw then d
  else { d with mem := d.mem.filter fun p => !inRegion c.entry p.1, ecc := d.ecc.filter fun p => !inRegion c.entry (8 * p.1) }

/-- An access of a unit to bytes under conversion stalls until the conversion has ended (R201): the running conversions over them end first (DESIGN CHOICE, log 123). -/
def Sled.stall (d : Sled) (off n : Nat) : Sled :=
  let hit := fun (c : Conv) => (inRegion c.entry off || inRegion c.entry (off + n - 1)) && !d.kernelIn c.entry
  let cs := d.convs.filter hit
  let d' := cs.foldl (fun (a : Sled) c => a.endConv c) d
  if cs.isEmpty then d
  else ({ d' with convs := d.convs.filter fun c => !hit c }).setRegBit .regStatus 0 (d.convs.any fun c => !hit c)

/-! ### The cells and their ECC -/

/-- A byte of the stored cells. What an unlisted offset reads as is zero: start-up writes all memory to zero (R471 step 8). -/
def Sled.cell (d : Sled) (off : Nat) : Byte := mget d.mem off

/-- The 64-bit cell word `k` (offset 8k). -/
def Sled.cellWord (d : Sled) (k : Nat) : Word64 := ofBytes 64 ((List.range 8).map fun i => d.cell (8 * k + i))

/-- Store bytes in the cells from an offset up. -/
def putCells (m : Map Byte) (off : Nat) : List Byte → Map Byte
  | [] => m
  | b :: bs => putCells (mset m off b) (off + 1) bs

/-- What a checked read of a word finds. -/
structure WordRead where
  data : Word64
  poison : Bool
  ce : Bool
deriving DecidableEq, Repr

/-- How many bits are set. -/
def popc {w : Nat} (v : BitVec w) : Nat := (List.range w).countP fun i => v.getLsbD i

/-- Read word `k` with SEC-DED (R203), or without check in a Local-Raw range (R205). -/
def Sled.eccRead (d : Sled) (k : Nat) : WordRead :=
  let v := d.cellWord k
  let m : EccMark := mget d.ecc k
  if m = default then ⟨v, false, false⟩
  else if d.class (8 * k) = .localRaw then ⟨v, false, false⟩
  else if m.bad then ⟨v, true, false⟩
  else if popc m.flips = 1 then ⟨v ^^^ m.flips.truncate 64, false, true⟩
  else if popc m.flips = 2 then ⟨v, true, false⟩
  else ⟨(Config.manyFlips v m.flips).1, decide ((Config.manyFlips v m.flips).2 = 0), decide ((Config.manyFlips v m.flips).2 = 1)⟩

/-- Record what a checked read of word `k` met: a corrected word is written back and counted, an uncorrectable one is counted
with its PA (R203, R393). -/
def Sled.eccNote (x : Ctx) (d : Sled) (k : Nat) : Sled :=
  let r := d.eccRead k
  if r.poison then ((d.bump64 .mmuUeCount).bump32 .twnHwerr).w64 .mmuUePa (BitVec.ofNat 64 (2 ^ 47 * x.sl.val + 8 * k))
  else if r.ce then { d.bump64 .mmuCeCount with mem := putCells d.mem (8 * k) (toBytes r.data 8), ecc := mset d.ecc k {} }
  else d

/-! ### Lines and the coherent view -/

/-- Eight bits. -/
def bits8 (f : Nat → Bool) : BitVec 8 := BitVec.ofNat 8 ((List.range 8).foldl (fun a i => a + if f i then 2 ^ i else 0) 0)

/-- The line a fill would bring in (R204). -/
def Sled.fill (d : Sled) (ln : Nat) : Line :=
  let ws := (List.range 8).map fun i => d.eccRead (8 * ln + i)
  { data := ofBytes 512 (ws.flatMap fun r => toBytes r.data 8), dirty := false,
    poison := bits8 fun i => (ws[i]?.map (·.poison)).getD false }

/-- The coherent contents of a line: the cached copy, else what a fill would bring in. -/
def Sled.line (d : Sled) (ln : Nat) : Line :=
  match (mget d.cache ln : Option Line) with
  | some l => l
  | none => d.fill ln

/-- A byte as every observer of the coherence domain reads it (R121). -/
def Sled.byte (d : Sled) (off : Nat) : Byte := (d.line (off / 64)).data.extractLsb' (8 * (off % 64)) 8
/-- A byte lies in a word that reads uncorrectable. -/
def Sled.badByte (d : Sled) (off : Nat) : Bool := bit (d.line (off / 64)).poison (off % 64 / 8)

/-- What a fill does besides: the checks of its eight words (R203). -/
def Sled.noteFill (x : Ctx) (d : Sled) (ln : Nat) : Sled := (List.range 8).foldl (fun d i => d.eccNote x (8 * ln + i)) d

/-- A read brings a line in. Whether the caches keep it is left open (R121): a free value. -/
def Sled.touch (x : Ctx) (d : Sled) (ln : Nat) : Sled :=
  match (mget d.cache ln : Option Line) with
  | some _ => d
  | none =>
    let l := d.fill ln
    let d := (d.noteFill x ln).stepFree
    { d with cache := mset d.cache ln (if Config.freeBool x.sl d.freeCtr then some l else none) }

/-- The lines of `n` bytes from an offset. -/
def linesOf (off n : Nat) : List Nat := if n = 0 then [] else List.range' (off / 64) ((off + n - 1) / 64 - off / 64 + 1)

/-- Read `n` bytes in the coherence domain: the bytes, which of them are uncorrectable, and the sled afterwards. -/
def Sled.coRead (x : Ctx) (d : Sled) (off n : Nat) : Sled × List Byte × List Bool :=
  ((linesOf off n).foldl (fun d ln => d.touch x ln) d, (List.range n).map fun k => d.byte (off + k),
    (List.range n).map fun k => d.badByte (off + k))

/-! ### Protected ranges (R384, R390) -/

/-- The valid protected ranges (Table 12.12). -/
def Sled.ranges (d : Sled) : List Word64 :=
  (d.cfg.words.filterMap fun e =>
    if 0x2801000 ≤ e.1 ∧ e.1 < 0x2801800 ∧ e.1 % 8 = 4 then some (d.r64 .twnRange ((e.1 - 0x2801004) / 8)) else none).filter
    fun e => decide (fld e 63 62 ≠ 0)

/-- A range entry holds this offset. -/
def inTwnRange (e : Word64) (off : Nat) : Bool := decide (fld e 30 0 ≤ off / 2 ^ 16 ∧ off / 2 ^ 16 < fld e 30 0 + fld e 55 32)

/-- The protected range over an offset: its KIND and tenant. -/
def Sled.rangeAt (d : Sled) (off : Nat) : Option (Nat × TenantId) :=
  (d.ranges.find? (inTwnRange · off)).map fun e => (fld e 63 62, Fin.ofNat 64 (fld e 61 56))

/-- The undo log already holds this line. -/
def Sled.logged (d : Sled) (ln : Nat) : Bool := d.undo.any fun u => decide (u.line = ln)

/-- Write-backs to a tenant's ranges are tracked: it is enabled here in a twin mode. For a Solo tenant dirty tracking and undo logging have ended (R416). -/
def Sled.tracks (d : Sled) (t : TenantId) : Bool := bit (d.r32 .tntStatus t) 0 && decide ((mget d.tenants t).mode ≠ 0)

/-- A write-back of this line may go ahead: it waits where the undo log is full (R390), and while its page of a Standby send has still to be sent (R389). -/
def Sled.canBack (d : Sled) (ln : Nat) : Bool :=
  match d.rangeAt (64 * ln) with
  | some (3, t) => !d.tracks t || d.logged ln || decide ((d.undo.length + 1) * 128 ≤ (d.r64 .twnUndoSize).toNat)
  | some (1, t) => !(mget d.twins t).unsent.contains (ln / 1024)
  | _ => true

/-- Track a write-back: the page of a HOME range, or the old line of a MIRROR range, which a checked read finds (R203, R384, R390, R416). -/
def Sled.noteBack (x : Ctx) (d : Sled) (ln : Nat) : Sled :=
  match d.rangeAt (64 * ln) with
  | some (1, t) =>
    if !d.tracks t then d else
    let pg := ln / 1024
    let add := fun (l : List Nat) => if l.contains pg then l else l ++ [pg]
    { d with twins := mmod d.twins t fun w => { w with dirty := add w.dirty, backs := add w.backs } }
  | some (3, t) =>
    if d.logged ln || !d.tracks t then d
    else
      let old := d.fill ln
      let d := d.noteFill x ln
      { d with undo := d.undo ++ [⟨t, ln, old.data, old.poison⟩], twins := mmod d.twins t fun w => { w with backs := w.backs ++ [ln] } }
  | _ => d

/-- Put the words of a line that `words` names in the cells: a poisoned word takes the pattern that always reads as uncorrectable (R204). -/
def Sled.putWords (d : Sled) (ln : Nat) (data : BitVec 512) (poison words : BitVec 8) : Sled :=
  let raw := decide (d.class (64 * ln) = .localRaw)
  let ks := (List.range 8).filter fun i => bit words i
  { d with mem := ks.foldl (fun m i => putCells m (64 * ln + 8 * i) (toBytes (data.extractLsb' (64 * i) 64) 8)) d.mem,
           ecc := ks.foldl (fun e i => if raw then e else mset e (8 * ln + i) { bad := bit poison i }) d.ecc }

/-- Put a whole line in the cells. -/
def Sled.putCellsLine (d : Sled) (ln : Nat) (data : BitVec 512) (poison : BitVec 8) : Sled := d.putWords ln data poison 0xFF

/-- Write a line's stored words back to the cells. A word of it that no store touched leaves memory as it is, so what a Depot wrote there stands (R369). -/
def Sled.writeBack (x : Ctx) (d : Sled) (ln : Nat) (l : Line) : Sled := (d.noteBack x ln).putWords ln l.data l.poison l.words

/-- Load a line into the caches, as PREF does (R152). -/
def Sled.load (x : Ctx) (d : Sled) (ln : Nat) : Sled :=
  match (mget d.cache ln : Option Line) with
  | some _ => d
  | none => { d.noteFill x ln with cache := mset d.cache ln (some (d.fill ln)) }

/-- Keep a line's contents for the cores that have not synchronized since (R124). -/
def Sled.keepText (d : Sled) (ln : Nat) : Sled :=
  let l := d.line ln
  { d with oldText := d.oldText ++ [⟨d.textSeq, ln, l.data, l.poison⟩], textSeq := d.textSeq + 1 }

/-- `l` (line `ln`) with bytes stored from `off` up: a word wholly stored loses its poison (R204). -/
def Line.store (l : Line) (ln off : Nat) (bs : List Byte) : Line :=
  let inR := fun a => decide (off ≤ a ∧ a < off + bs.length)
  { data := ofBytes 512 ((List.range 64).map fun k =>
      if inR (64 * ln + k) then bs.getD (64 * ln + k - off) 0 else l.data.extractLsb' (8 * k) 8),
    dirty := true,
    words := l.words ||| bits8 fun i => (List.range 8).any fun j => inR (64 * ln + 8 * i + j),
    poison := bits8 fun i => bit l.poison i && !((List.range 8).all fun j => inR (64 * ln + 8 * i + j)) }

/-- The node caches drop the block of a line that is written or discarded in the domain (R121, R289). -/
def Sled.dropNode (d : Sled) (ln : Nat) : Sled :=
  { d with engines := d.engines.foldl (fun m p =>
      if (mget p.2.nodes (ln / 2)).isSome then mset m p.1 { p.2 with nodes := mset p.2.nodes (ln / 2) none } else m) d.engines }

/-- Put new contents of a line in the domain: kept dirty in the caches, or written back at once, a free value (R121). -/
def Sled.putLine (x : Ctx) (d : Sled) (ln : Nat) (l : Line) : Sled :=
  let d := ((d.keepText ln).dropNode ln).stepFree
  if Config.freeBool x.sl d.freeCtr || !d.canBack ln then { d with cache := mset d.cache ln (some l) }
  else { d.writeBack x ln l with cache := mset d.cache ln none }

/-- Store bytes into one line, filling it first when no cache holds it. -/
def Sled.storeLine (x : Ctx) (d : Sled) (off : Nat) (bs : List Byte) (ln : Nat) : Sled :=
  let l := (d.line ln).store ln off bs
  let d := match (mget d.cache ln : Option Line) with
    | some _ => d
    | none => d.noteFill x ln
  d.putLine x ln l

/-- Store bytes in the coherence domain. -/
def Sled.coWrite (x : Ctx) (d : Sled) (off : Nat) (bs : List Byte) : Sled :=
  (linesOf off bs.length).foldl (fun d ln => d.storeLine x off bs ln) d

/-- Mark the word holding an offset poisoned, as a write of an uncorrectable word does (R204, R215). -/
def Sled.coPoison (x : Ctx) (d : Sled) (off : Nat) : Sled :=
  let l := d.line (off / 64)
  d.putLine x (off / 64) { l with dirty := true, words := l.words ||| (1#8 <<< (off % 64 / 8)), poison := l.poison ||| (1#8 <<< (off % 64 / 8)) }

/-- Read the word at an aligned offset. -/
def Sled.co64 (d : Sled) (off : Nat) : Word64 := ofBytes 64 ((List.range 8).map fun k => d.byte (off + k))

/-- Clean one line: write it back when it is dirty and leave it valid (R161). It stays dirty where the write-back must wait (R390). -/
def Sled.flushLine (x : Ctx) (d : Sled) (ln : Nat) : Sled :=
  match (mget d.cache ln : Option Line) with
  | some l => if l.dirty && d.canBack ln then { d.writeBack x ln l with cache := mset d.cache ln (some { l with dirty := false, words := 0 }) } else d
  | none => d

/-- Discard one line without writing it back (R161). -/
def Sled.dropLine (d : Sled) (ln : Nat) : Sled :=
  { (d.keepText ln).dropNode ln with cache := mset d.cache ln none }

/-! ### Access past the caches (R350, R369) -/

/-- Read `n` bytes from the cells with the class's check: the bytes, which are uncorrectable, and the sled afterwards. -/
def Sled.rawRead (x : Ctx) (d : Sled) (off n : Nat) : Sled × List Byte × List Bool :=
  ((if n = 0 then [] else List.range' (off / 8) ((off + n - 1) / 8 - off / 8 + 1)).foldl (fun d k => d.eccNote x k) d,
    (List.range n).map fun k => (d.eccRead ((off + k) / 8)).data.extractLsb' (8 * ((off + k) % 8)) 8,
    (List.range n).map fun k => (d.eccRead ((off + k) / 8)).poison)

/-- Write bytes of whole 64-bit words to the cells with valid check bits; in a Local-Raw range the check bits stay (R205). -/
def Sled.rawWrite (x : Ctx) (d : Sled) (off : Nat) (bs : List Byte) : Sled :=
  let d := (linesOf off bs.length).foldl (fun d ln => (d.keepText ln).noteBack x ln) d
  let ks := if bs.length = 0 then [] else List.range' (off / 8) ((off + bs.length - 1) / 8 - off / 8 + 1)
  { d with mem := putCells d.mem off bs,
           ecc := ks.foldl (fun e k => if d.class (8 * k) = .localRaw then e else mset e k {}) d.ecc }

/-! ### Counted energy (Table 13.4) -/

/-- Count `n` events of an index of Table 13.4 for a tenant; 64 stands for the system. -/
def Sled.tally (d : Sled) (t idx n : Nat) : Sled := { d with counts := mmod d.counts (t * 32 + idx) (· + n) }

/-- Count the DRAM bits that an access for a tenant moves to a compute die: 512 for each line that no cache holds (index 9). -/
def Sled.tallyMiss (d : Sled) (t off n : Nat) : Sled :=
  let miss := (linesOf off n).countP fun ln => decide ((mget d.cache ln : Option Line) = none)
  if miss = 0 then d else d.tally t 9 (512 * miss)

end Sys2Proof.Machine
end

