-- ==== Sys2Proof/Machine/Reach.lean ====
section
/-! DEFINITION. Who reaches whose memory across the rack (R208, R209, R391, R401), and the change of one sled in its surroundings. -/
namespace Sys2Proof.Machine

/-- The rack state of a sled (Table 12.6), as its TWN_STATE shows it. -/
def Sled.rackState (d : Sled) : Nat := fld (d.r32 .twnState) 2 0
/-- The sled holds its pair's lease. -/
def Sled.hasLease (d : Sled) : Bool := bit (d.r32 .twnState) 4
/-- The other sled of a pair (R18). -/
def twinOf (sl : SledId) : SledId := if sl.val % 2 = 0 then Fin.ofNat 16 (sl.val + 1) else Fin.ofNat 16 (sl.val - 1)
/-- The sled reaches other sleds and is reached by them: it is IN_SERVICE (R401), and its port is not isolated (R397). -/
def State.inService (s : State) (sl : SledId) : Bool := decide ((s.sled sl).rackState = 4) && !bit s.rack.isolated sl.val

/-- Both sleds are in service and reach each other (R209, R401). -/
def State.bothUp (s : State) (a b : SledId) : Bool := s.inService a && s.inService b

/-- The target answers accesses of another sled to this offset: it is memory there (R187, R209). -/
def State.answers (s : State) (dst : SledId) (off : Nat) : Bool :=
  match (s.sled dst).class off with
  | .hole => false
  | .device => false
  | _ => true

/-- A store or atomic of another sled may reach this offset: never a MIRROR range (R391). -/
def State.takesStore (s : State) (dst : SledId) (off : Nat) : Bool :=
  s.answers dst off && (match (s.sled dst).rangeAt off with | some (3, _) => false | _ => true)

/-- The sled that serves remote loads of an offset: the lease holder for a MIRROR range (R391). -/
def State.server (s : State) (dst : SledId) (off : Nat) : SledId :=
  match (s.sled dst).rangeAt off with
  | some (3, _) => if (s.sled dst).hasLease then dst else twinOf dst
  | _ => dst

/-- What a load of `n` bytes at a PA of another sled finds, from sled `sl`: none where it fails (R209). -/
def State.farBytes (s : State) (sl : SledId) (pa n : Nat) : Option (List Byte × List Bool) :=
  let dst := sledOf (pa / 2 ^ 47)
  let off := pa % 2 ^ 47
  let d := s.sled (s.server dst off)
  if s.bothUp sl dst && s.answers dst off && s.inService (s.server dst off) then
    some ((List.range n).map fun k => d.byte (off + k), (List.range n).map fun k => d.badByte (off + k))
  else none

/-- The marks that the running cores of other sleds hold in the text of sled `sl` (R124). -/
def State.textLows (s : State) (sl : SledId) : List Nat :=
  s.sleds.flatMap fun e => if e.1 = sl.val then [] else (e.2.cores.filter fun k => k.2.entry.isSome).map fun k => mget k.2.farSeq sl.val

/-- The surroundings of sled `sl`. -/
def State.ctx (s : State) (sl : SledId) : Ctx :=
  { sl := sl, now := s.now, far := s.farBytes sl, marks := fun n => (s.sled (sledOf n)).textSeq, lows := s.textLows sl }

/-- Change sled `sl`. -/
def State.onSled (s : State) (sl : SledId) (f : Ctx → Sled → Sled) : State := s.setSled sl (f (s.ctx sl) (s.sled sl))

/-! ### Units and other sleds (R208, R209) -/

/-- Twin mode Mirror is in force. -/
def Sled.mirror (d : Sled) (t : TenantId) : Bool := decide ((mget d.tenants t).mode = 2)

/-- A byte that a unit has sent to another sled and the fabric still carries. -/
def Sled.postedByte (d : Sled) (dst : SledId) (off : Nat) : Option Byte :=
  d.posts.foldl (fun b p => match p.body with
    | .wr o bs => if p.dst = dst ∧ o ≤ off ∧ off < o + bs.length then bs[off - o]? else b
    | _ => b) none

/-- A unit loads bytes of another sled for a tenant (DEDUCED, log 23), when its command makes the access (DESIGN CHOICE, log 132): its own stores that are still on their way come
first (R208), and a failed load gives uncorrectable bytes (R209). -/
def Sled.farRead (x : Ctx) (d : Sled) (t : TenantId) (pa n : Nat) : Sled × List Byte × List Bool :=
  let dst := sledOf (pa / 2 ^ 47)
  let off := pa % 2 ^ 47
  match x.far pa n with
  | none => (d.bump32 .mmuRemoteFail, List.replicate n 0, List.replicate n true)
  | some r =>
    let d' := { d.tally t.val 10 (8 * n) with posts := d.posts ++ [⟨dst, t, .rdReq off n 0 0⟩] }
    (d', (List.range n).map fun k => (d.postedByte dst (off + k)).getD (r.1.getD k 0),
      (List.range n).map fun k => (d.postedByte dst (off + k)).isNone && r.2.getD k false)

/-- A unit stores bytes at a PA of another sled for a tenant: posted; for a Mirror tenant by the lease holder only (R391). -/
def Sled.farWrite (d : Sled) (t : TenantId) (pa : Nat) (bs : List Byte) : Sled :=
  if d.mirror t && !d.hasLease then d
  else { d.tally t.val 10 (8 * bs.length) with posts := d.posts ++ [⟨sledOf (pa / 2 ^ 47), t, .wr (pa % 2 ^ 47) bs⟩] }

end Sys2Proof.Machine
end

