-- ==== Sys2Proof/Machine/Translate.lean ====
section
/-! DEFINITION. Translation: the walk (R185 to R195), the translation caches (R196), permissions (R190), and the reads and writes that units make through a tenant's tables. -/
namespace Sys2Proof.Machine

/-- How a walk failed (Table 6.4): reason, level reported, PA of the entry. -/
structure WalkFail where
  reason : Nat
  level : Nat
  entryPa : Nat
deriving DecidableEq, Repr

/-- A leaf reached: the PA accessed, ACC and K. -/
structure Leaf where
  pa : Nat
  acc : Nat
  kernelOnly : Bool
deriving DecidableEq, Repr

inductive WalkRes where
  | leaf (l : Leaf)
  | fail (f : WalkFail)
deriving DecidableEq, Repr

/-- The fault code of a walk reason (Table 6.4). -/
def reasonCode (reason : Nat) : Nat := if reason = 3 then 4 else if reason = 4 then 5 else 1

/-- The shift that leaves the VA bits naming an entry of a level (R185). -/
def levelShift (level : Nat) : Nat := if level = 1 then 42 else if level = 2 then 29 else 16

/-- Read the entry of a level: a cached copy of it, or memory, a free choice among the copies held (R196). R193 and the
entry's own ECC decide whether memory is read. -/
def Sled.readPte (x : Ctx) (d : Sled) (t : TenantId) (level : Nat) (va entryPa : Nat) : Sled × Sum Word64 WalkFail :=
  let copies := d.tlb.filter fun e => decide (e.tenant = t ∧ e.level = level ∧ e.tag = va / 2 ^ levelShift level)
  let pick := if copies.isEmpty then 0 else Config.freeNat x.sl d.freeCtr % (copies.length + 1)
  let d := if copies.isEmpty then d else d.stepFree
  match copies[pick - 1]? with
  | some e => if pick ≠ 0 then (d, .inl e.pte) else readMem d
  | none => readMem d
where
  readMem (d : Sled) : Sled × Sum Word64 WalkFail :=
    match d.target x entryPa with
    | .mem off =>
      let d := d.stall off 8
      let r := ((d.tallyMiss t off 8).coRead x off 8).1
      if d.badByte off then (r, .inr ⟨4, level, entryPa⟩) else (r, .inl (d.co64 off))
    | _ => (d, .inr ⟨3, level, entryPa⟩)

/-- What is wrong with an entry at a level, as a walk reason (Table 6.4, 0x05 to 0x08). -/
def pteBad (e : Word64) (level : Nat) : Option Nat :=
  let leaf := bit e 1
  if !bit e 0 then some 5
  else if fld e 63 52 ≠ 0 ∨ fld e 15 7 ≠ 0 ∨ bit e 2 ∨ (leaf = false ∧ fld e 6 3 ≠ 0)
      ∨ (leaf ∧ (fld e 5 3 = 0 ∨ 5 ≤ fld e 5 3)) then some 6
  else if (level = 1 ∧ leaf) ∨ (level = 3 ∧ !leaf) then some 7
  else if level = 2 ∧ leaf ∧ fld e 28 16 ≠ 0 then some 8
  else none

/-- The walk from a table down; `left` levels remain, and `got` holds the entries read. A walk that ends in a leaf is cached, a
failed one is not (R195, R196). -/
def Sled.walkFrom (x : Ctx) (d : Sled) (t : TenantId) (va : Nat) (table : Nat) (got : List TlbEntry) : Nat → Sled × WalkRes
  | 0 => (d, .fail ⟨7, 3, table⟩)
  | left + 1 =>
    let level := 3 - left
    let entryPa := table + 8 * (va / 2 ^ levelShift level % 8192)
    let r := d.readPte x t level va entryPa
    match r.2 with
    | .inr f => (r.1, .fail f)
    | .inl e =>
      match pteBad e level with
      | some n => (r.1, .fail ⟨n, level, entryPa⟩)
      | none =>
        let got := got ++ [⟨t, level, va / 2 ^ levelShift level, e⟩]
        if bit e 1 then
          let pa := if level = 2 then 2 ^ 29 * fld e 51 29 + va % 2 ^ 29 else 2 ^ 16 * fld e 51 16 + va % 2 ^ 16
          match r.1.target x pa with
          | .hole => (r.1, .fail ⟨9, level, entryPa⟩)
          | _ => ({ r.1 with tlb := r.1.tlb ++ got.filter fun g => !(r.1.tlb.contains g) }, .leaf ⟨pa, fld e 5 3, bit e 6⟩)
        else r.1.walkFrom x t va (2 ^ 16 * fld e 51 16) got left

/-- The walk of a VA under a tenant's root in force (R194, R198). -/
def Sled.walk (x : Ctx) (d : Sled) (t : TenantId) (va : Nat) : Sled × WalkRes :=
  let root := (mget d.tenants t).root
  if 2 ^ 55 ≤ va then (d, .fail ⟨1, 0, 0⟩)
  else if !bit root 0 then (d, .fail ⟨2, 0, 0⟩)
  else d.walkFrom x t va (2 ^ 16 * fld root 51 16) [] 3

/-- Kinds of access (Table 6.3). -/
inductive Acc where
  | load | store | fetch
deriving DecidableEq, Repr

/-- The fault a leaf gives an access, if any (R190, Table 6.3): PERM (2) or WRITE_EXEC (3). -/
def permFault (kernel : Bool) (a : Acc) (l : Leaf) : Option Nat :=
  if l.kernelOnly && !kernel then some 2
  else match a with
    | .load => if l.acc = 4 then some 2 else none
    | .store => if l.acc = 1 then some 2 else if l.acc = 2 then none else some 3
    | .fetch => if l.acc = 3 ∨ l.acc = 4 then none else some 2

/-- A translation fault: its code, the VA, and the walk's details (zero where no walk failed). -/
structure TFault where
  code : Nat
  va : Nat
  level : Nat := 0
  reason : Nat := 0
  entryPa : Nat := 0
deriving DecidableEq, Repr

inductive TRes where
  | ok (pa : Nat)
  | fault (f : TFault)
deriving DecidableEq, Repr

/-- Translate one VA for one access. -/
def Sled.translate (x : Ctx) (d : Sled) (t : TenantId) (kernel : Bool) (a : Acc) (va : Nat) : Sled × TRes :=
  let r := d.walk x t va
  match r.2 with
  | .fail f => (r.1, .fault ⟨reasonCode f.reason, va, f.level, f.reason, f.entryPa⟩)
  | .leaf l =>
    match permFault kernel a l with
    | some c => (r.1, .fault { code := c, va := va })
    | none => (r.1, .ok l.pa)

/-- Split `n` bytes from a VA at the 64 KiB pages: (VA, bytes before this piece, length). -/
def pieces (va n : Nat) : List (Nat × Nat × Nat) :=
  if n = 0 then [] else
  (List.range' (va / 2 ^ 16) ((va + n - 1) / 2 ^ 16 - va / 2 ^ 16 + 1)).map fun p =>
    let lo := max va (2 ^ 16 * p)
    let hi := min (va + n) (2 ^ 16 * (p + 1))
    (lo, lo - va, hi - lo)

/-- Where each piece of a translated access lies: its PA, the bytes before it, its length, its VA. -/
structure Piece where
  pa : Nat
  pos : Nat
  len : Nat
  va : Nat
deriving DecidableEq, Repr

/-- Rank of a fault among those of one access (R127): walk failures, then page PERM, then WRITE_EXEC. -/
def faultRank (c : Nat) : Nat := if c = 2 then 1 else if c = 3 then 2 else 0

/-- Of two faults of one access, the one R127 reports: the lower rank, then the lower address (DEDUCED, log 22). -/
def firstFault (a : Option TFault) (b : TFault) : TFault :=
  match a with
  | none => b
  | some a =>
    if faultRank b.code < faultRank a.code ∨ (faultRank b.code = faultRank a.code ∧ b.va < a.va) then b else a

/-- Translate every piece of a list (VA, position, length): all pieces with their PAs, or the fault R127 reports. -/
def Sled.translateList (x : Ctx) (d : Sled) (t : TenantId) (kernel : Bool) (a : Acc) (ps : List (Nat × Nat × Nat)) :
    Sled × List Piece × Option TFault :=
  ps.foldl (fun acc p =>
    let r := acc.1.translate x t kernel a p.1
    match r.2 with
    | .ok pa => (r.1, acc.2.1 ++ [⟨pa, p.2.1, p.2.2, p.1⟩], acc.2.2)
    | .fault f => (r.1, acc.2.1, some (firstFault acc.2.2 f))) (d, [], none)

/-- What a unit's read or write through a tenant's tables met. -/
inductive URes where
  | ok (bytes : List Byte) (bad : List Bool)
  | fault (f : TFault)
deriving DecidableEq, Repr

/-- A unit reads `n` bytes at a VA (R191): in the coherence domain of this sled, or of the sled whose memory it is (R208). A Device PA is a PERM fault. -/
def Sled.uRead (x : Ctx) (d : Sled) (t : TenantId) (kernel : Bool) (va n : Nat) : Sled × URes :=
  let r := d.translateList x t kernel .load (pieces va n)
  match r.2.2 with
  | some f => (r.1, .fault f)
  | none =>
    r.2.1.foldl (fun acc p =>
      match acc.2 with
      | .fault f => (acc.1, .fault f)
      | .ok bs bad =>
        match acc.1.target x p.pa with
        | .mem off =>
          let q := ((acc.1.stall off p.len).tallyMiss t off p.len).coRead x off p.len
          (q.1, .ok (bs ++ q.2.1) (bad ++ q.2.2))
        | .farMem _ _ =>
          let q := acc.1.farRead x t p.pa p.len
          (q.1, .ok (bs ++ q.2.1) (bad ++ q.2.2))
        | _ => (acc.1, .fault { code := 2, va := p.va })) (r.1, .ok [] [])

/-- A unit writes bytes at a VA, in the coherence domain of the sled whose memory it is: nothing is written unless every piece translates. -/
def Sled.uWrite (x : Ctx) (d : Sled) (t : TenantId) (kernel : Bool) (va : Nat) (bs : List Byte) : Sled × Option TFault :=
  let r := d.translateList x t kernel .store (pieces va bs.length)
  match r.2.2 with
  | some f => (r.1, some f)
  | none =>
    match r.2.1.find? fun p => match r.1.target x p.pa with | .device _ | .farDevice _ _ => true | _ => false with
    | some p => (r.1, some { code := 2, va := p.va })
    | none =>
      (r.2.1.foldl (fun d p =>
        match d.target x p.pa with
        | .mem off => ((d.stall off p.len).tallyMiss t off p.len).coWrite x off ((bs.drop p.pos).take p.len)
        | .farMem _ _ => d.farWrite t p.pa ((bs.drop p.pos).take p.len)
        | _ => d) r.1, none)

/-- Drop the cached entries of a tenant that meet `f` (R197, R198). -/
def Sled.invalidate (d : Sled) (t : TenantId) (f : TlbEntry → Bool) : Sled :=
  { d with tlb := d.tlb.filter fun e => !(decide (e.tenant = t) && f e) }

end Sys2Proof.Machine
end

