-- ==== Sys2Proof/Machine/FaultLog.lean ====
section
/-! DEFINITION. Bell time on a node, and the fault log: staging records (R81), merging, and the flush to the tenant's ring (R82, R83). -/
namespace Sys2Proof.Machine

/-- The Bell count of a sled. -/
def Sled.count (d : Sled) : Word64 := d.r64 .belCount
/-- Bell time: the boundary's time plus the ns since then; it stands still before the first boundary (R36). -/
def bellTime (now : Nat) (b : Bell) (tickStart : Word64) : Word64 :=
  if b.running then tickStart + BitVec.ofNat 64 (now - b.startedAt) else tickStart
/-- Bell time on a sled. -/
def Sled.time (x : Ctx) (d : Sled) : Word64 := bellTime x.now d.bell (d.r64 .belTickStart)

/-- The tenant's state. -/
def Sled.ten (d : Sled) (t : TenantId) : Tenant := mget d.tenants t
/-- Change the tenant's state. -/
def Sled.onTen (d : Sled) (t : TenantId) (f : Tenant → Tenant) : Sled := { d with tenants := mmod d.tenants t f }

/-- Two records merge (R81). -/
def FaultRec.same (a b : FaultRec) : Bool := decide (a.code = b.code ∧ a.source = b.source ∧ a.unit = b.unit ∧ a.addr = b.addr)

/-- Count a discarded record (R81, R82). -/
def Sled.loseRec (d : Sled) (t : TenantId) : Sled := (d.bump32 .tntFlogLost t).onTen t fun n => { n with lost := true }

/-- Stage a record whose BELL_COUNT and BELL_TIME are already set (R81). -/
def Sled.stageRec (d : Sled) (t : TenantId) (r : FaultRec) : Sled :=
  let n := d.ten t
  if n.staged.any (fun a => a.same r) then
    let merge := fun (a : FaultRec) => if a.same r then { a with count := BitVec.ofNat 32 (min (a.count.toNat + 1) (2 ^ 32 - 1)) } else a
    d.onTen t fun n => { n with staged := n.staged.map merge }
  else if n.staged.length < 16 then d.onTen t fun n => { n with staged := n.staged ++ [r] }
  else d.loseRec t

/-- Stage a record of the running tick (R83). -/
def Sled.stage (x : Ctx) (d : Sled) (t : TenantId) (r : FaultRec) : Sled :=
  d.stageRec t { r with bellCount := d.count, bellTime := d.time x }

/-- A record of a translation fault (R195): LEVEL is the walk level for 0x04 and 0x05. -/
def TFault.record (f : TFault) (source : Byte) (unit : Nat) (queue : Byte) (entry : Word32) : FaultRec :=
  { addr := BitVec.ofNat 64 f.va, code := BitVec.ofNat 8 f.code, sev := 2, source := source,
    level := if f.code = 4 ∨ f.code = 5 then BitVec.ofNat 8 f.level else 0, unit := BitVec.ofNat 16 unit,
    queue := queue, entry := entry, detail0 := BitVec.ofNat 64 f.entryPa,
    detail1 := BitVec.ofNat 64 (f.reason + 256 * f.level) }

/-- The 64 bytes of a record (Table 3.5); `lost` is FLAGS[0]. -/
def FaultRec.bytes (r : FaultRec) (lost : Bool) : List Byte :=
  toBytes r.bellCount 8 ++ toBytes r.bellTime 8 ++ toBytes r.addr 8 ++ [r.code, r.sev, r.source, r.level] ++ toBytes r.unit 2
    ++ [r.queue, if lost then 1 else 0] ++ toBytes r.entry 4 ++ toBytes r.count 4 ++ toBytes r.detail0 8 ++ toBytes r.detail1 8
    ++ List.replicate 8 0

/-- Write one record to the tenant's ring, or discard and count it when the ring is full or its page cannot be written (R82, log 24). -/
def Sled.flushRec (x : Ctx) (d : Sled) (t : TenantId) (r : FaultRec) : Sled :=
  let tail := d.r32 .tntFlogTail t
  if 64 ≤ (tail - d.r32 .tntFlogHead t).toNat then d.loseRec t
  else
    let w := d.uWrite x t true ((d.r64 .tntFlogBase t).toNat + tail.toNat % 64 * 64) (r.bytes (d.ten t).lost)
    match w.2 with
    | some _ => w.1.loseRec t
    | none => (w.1.w32 .tntFlogTail (tail + 1) t).onTen t fun n => { n with lost := false }

/-- Flush a tenant's staged records in order (R82). -/
def Sled.flushTenant (x : Ctx) (d : Sled) (t : TenantId) : Sled :=
  let rs := (d.ten t).staged
  rs.foldl (fun d r => d.flushRec x t r) (d.onTen t fun n => { n with staged := [] })

/-- Tenant `n` as an ID. -/
def tenantOf (n : Nat) : TenantId := Fin.ofNat 64 n
/-- All tenants. -/
def allTenants : List TenantId := (List.range 64).map tenantOf

/-- The tenant is enabled as of the current tick. -/
def Sled.active (d : Sled) (t : TenantId) : Bool := bit (d.r32 .tntStatus t) 0
/-- Fewer than 16 tenants are enabled on the sled (R67). -/
def Sled.slotFree (d : Sled) : Bool := decide (allTenants.countP d.active < 16)
/-- The tenant's reset runs. -/
def Sled.resetBusy (d : Sled) (t : TenantId) : Bool := bit (d.r32 .tntStatus t) 1
/-- The tenant is fenced (R48, R395). -/
def Sled.fenced (d : Sled) (t : TenantId) : Bool := bit (d.r32 .tntStatus t) 4

end Sys2Proof.Machine
end

