-- ==== Sys2Proof/Machine/Nv.lean ====
section
/-! DEFINITION. The boot flash and the other non-volatile writes of a sled (13_power.md R426 to R428, 15_startup.md R477). -/
namespace Sys2Proof.Machine

/-- A byte of the boot flash. -/
def Sled.flashByte (d : Sled) (sl : SledId) (a : Nat) : Byte := (mget d.nv.flash a).getD (Config.flash sl.val a)
/-- Store a byte of the boot flash. -/
def Sled.setFlash (d : Sled) (a : Nat) (v : Byte) : Sled := { d with nv := { d.nv with flash := mset d.nv.flash a (some v) } }
/-- Firmware never writes the slot it booted from (R477). -/
def Sled.bootSlot (d : Sled) (a : Nat) : Bool :=
  let b := if bit (d.r32 .fusBoot) 0 then 0x1C00000 else 0
  decide (b ≤ a ∧ a < b + 0x1C00000)

/-- Program a page: bits go from 1 to 0, and the address wraps within the 256-byte page (PRESUMED: SPI NOR, log 58). -/
def Sled.flashProgram (sl : SledId) (d : Sled) (a : Nat) (bs : List Byte) : Sled :=
  (List.range bs.length).foldl (fun (d : Sled) i =>
    let p := a - a % 256 + (a + i) % 256
    if p < 0x4000000 ∧ !d.bootSlot p then d.setFlash p (d.flashByte sl p &&& bs.getD i 0xFF) else d) d
/-- Erase a 64 KiB block to ones. -/
def Sled.flashErase (d : Sled) (b : Nat) : Sled :=
  (List.range 65536).foldl (fun (d : Sled) i => let p := 65536 * b + i; if p < 0x4000000 ∧ !d.bootSlot p then d.setFlash p 0xFF else d) d

/-- The tenants whose LED_TOTAL is persisted. -/
def Sled.enabledTenants (d : Sled) : List TenantId := allTenants.filter d.active

/-- What a write writes. -/
def Sled.nvPut (sl : SledId) (d : Sled) : NvWrite → Sled
  | .program a bs => d.flashProgram sl a bs
  | .erase b => d.flashErase b
  | .statusReg v => { d with nv := { d.nv with flashSr := v } }
  | .configReg v => { d with nv := { d.nv with flashCr := v } }
  | .ledger => { d with nv := { d.nv with totals := d.enabledTenants.foldl (fun (m : Map (Option Word64)) (t : TenantId) => mset m t.val (some (d.r64 .ledTotal t))) d.nv.totals } }
  | .eventLog es => { d with nv := { d.nv with logged := d.nv.logged + d.boot.logHeld + es.sum }, boot := { d.boot with logHeld := 0 } }

/-- A write that the NV Guard lets start. The flash controller's status shows no refusal any more. -/
def Sled.nvDo (sl : SledId) (d : Sled) (w : NvWrite) : Sled :=
  { d.nvPut sl w with writing := some w, boot := { (d.nvPut sl w).boot with flashRefused := false } }

/-- A free byte. -/
def Sled.freeByte (sl : SledId) (d : Sled) : Byte := (Config.freeWord sl.val d.freeCtr).truncate 8

/-- What a write was to write is undefined: free values (R427). -/
def Sled.nvSpoil (sl : SledId) (d : Sled) : NvWrite → Sled
  | .program a bs => (List.range bs.length).foldl (fun (d : Sled) i =>
      let p := a - a % 256 + (a + i) % 256
      if p < 0x4000000 ∧ !d.bootSlot p then (d.setFlash p (d.freeByte sl)).stepFree else d) d
  | .erase b => (List.range 65536).foldl (fun (d : Sled) i =>
      let p := 65536 * b + i
      if p < 0x4000000 ∧ !d.bootSlot p then (d.setFlash p (d.freeByte sl)).stepFree else d) d
  | .statusReg _ => { d with nv := { d.nv with flashSr := d.freeByte sl } }.stepFree
  | .configReg _ => { d with nv := { d.nv with flashCr := d.freeByte sl } }.stepFree
  | .ledger => d.enabledTenants.foldl (fun (d : Sled) (t : TenantId) =>
      { d with nv := { d.nv with totals := mset d.nv.totals t.val (some (Config.freeWord sl.val d.freeCtr)) } }.stepFree) d
  | .eventLog _ => { d with nv := { d.nv with logged := Config.freeNat sl.val d.freeCtr } }.stepFree

/-- The sled ends. Whether the write it started last was then complete is a free value: the spec gives no durations (log 102). -/
def Sled.nvEnd (sl : SledId) (d : Sled) : Sled :=
  match d.writing with
  | none => d
  | some w => if Config.freeBool sl.val d.freeCtr then d.stepFree else d.stepFree.nvSpoil sl w

end Sys2Proof.Machine
end

