-- ==== Sys2Proof/Machine/Flags.lean ====
section
/-! DEFINITION. Floating point: the formats, exact values, rounding with its flags, and the operations over them (R108, R115 to R120). -/
namespace Sys2Proof.Machine

/-! ### Formats (Table 4.5) -/

/-- A floating-point format. FP64 is used inside the triangle test only (R268). -/
inductive Fmt where
  | fp32 | fp16 | bf16 | e4m3 | e5m2 | fp64
deriving DecidableEq, Repr

/-- Exponent bits. -/
def Fmt.ebits : Fmt → Nat
  | .fp32 => 8 | .fp16 => 5 | .bf16 => 8 | .e4m3 => 4 | .e5m2 => 5 | .fp64 => 11
/-- Fraction bits. -/
def Fmt.fbits : Fmt → Nat
  | .fp32 => 23 | .fp16 => 10 | .bf16 => 7 | .e4m3 => 3 | .e5m2 => 2 | .fp64 => 52
/-- Width in bits. -/
def Fmt.width (f : Fmt) : Nat := 1 + f.ebits + f.fbits
/-- Exponent bias. -/
def Fmt.bias (f : Fmt) : Int := 2 ^ (f.ebits - 1) - 1
/-- The exponent of the smallest subnormal. -/
def Fmt.qmin (f : Fmt) : Int := 1 - f.bias - f.fbits
/-- The encoding of the largest finite magnitude. -/
def Fmt.maxBits (f : Fmt) : Nat := match f with
  | .e4m3 => 0x7E
  | f => (2 ^ f.ebits - 1) * 2 ^ f.fbits - 1
/-- The encoding of infinity; E4M3 has none and its overflow is its NaN (Table 4.6). -/
def Fmt.infBits (f : Fmt) : Nat := match f with
  | .e4m3 => 0x7F
  | f => (2 ^ f.ebits - 1) * 2 ^ f.fbits
/-- The canonical NaN. -/
def Fmt.nan (f : Fmt) : Nat := match f with
  | .e4m3 => 0x7F
  | f => (2 ^ f.ebits - 1) * 2 ^ f.fbits + 2 ^ (f.fbits - 1)

/-- An operand: a NaN, an infinity, or the finite value m x 2^e with its sign. -/
inductive Val where
  | nan (signalling : Bool)
  | inf (neg : Bool)
  | fin (neg : Bool) (m : Nat) (e : Int)
deriving DecidableEq, Repr

/-- The sign bit of an encoding. -/
def Fmt.neg (f : Fmt) (b : Nat) : Bool := decide (b / 2 ^ (f.width - 1) % 2 = 1)

/-- The value an encoding stands for. Subnormals are kept (R115). -/
def Fmt.unpack (f : Fmt) (b : Nat) : Val :=
  let ex := b / 2 ^ f.fbits % 2 ^ f.ebits
  let fr := b % 2 ^ f.fbits
  let s := f.neg b
  if f = .e4m3 then
    if ex = 15 ∧ fr = 7 then .nan false
    else if ex = 0 then .fin s fr f.qmin else .fin s (fr + 2 ^ f.fbits) (f.qmin + ex - 1)
  else if ex = 2 ^ f.ebits - 1 then
    if fr = 0 then .inf s else .nan (decide (fr < 2 ^ (f.fbits - 1)))
  else if ex = 0 then .fin s fr f.qmin
  else .fin s (fr + 2 ^ f.fbits) (f.qmin + ex - 1)

/-! ### Flags (Table 4.11) -/

def fNX : Nat := 1
def fUF : Nat := 2
def fOF : Nat := 4
def fDZ : Nat := 8
def fNV : Nat := 16

/-- A result with the flags it raises. -/
structure FRes where
  bits : Nat
  flags : Nat
deriving DecidableEq, Repr

/-- How a result is rounded: RM (Table 4.4), or SR with its 16-bit value r (R120). -/
inductive Rnd where
  | near | zero | up | down
  | sr (r : Nat)
deriving DecidableEq, Repr

/-- The 16-bit value r of R120 for element e. -/
def srBits (seed count : Word64) (e : Nat) : Nat :=
  let x0 : Word64 := seed ^^^ (count * 0x9E3779B97F4A7C15) ^^^ (BitVec.ofNat 64 e * 0xBF58476D1CE4E5B9)
  let x1 := (x0 ^^^ (x0 >>> 30)) * 0x94D049BB133111EB
  ((x1 ^^^ (x1 >>> 31)) >>> 48).toNat

/-- The rounding an instruction word asks for, for element e. -/
def rndOf (rm : Nat) (sr : Bool) (seed count : Word64) (e : Nat) : Rnd :=
  if sr then .sr (srBits seed count e)
  else if rm = 0 then .near else if rm = 1 then .zero else if rm = 2 then .up else .down

/-- A magnitude m x 2^e; `sticky` says that the exact value lies strictly between it and the next m. -/
structure Mag where
  m : Nat
  e : Int
  sticky : Bool := false
deriving DecidableEq, Repr

/-- |v| in units of 2^q, rounded: the integer, and whether it differs from |v|. -/
def roundAt (r : Rnd) (neg : Bool) (g : Mag) (q : Int) : Nat × Bool :=
  if q ≤ g.e then (g.m * 2 ^ (g.e - q).toNat, g.sticky)
  else
    let s := (q - g.e).toNat
    let n := g.m / 2 ^ s
    let rem := g.m % 2 ^ s
    let inexact := decide (rem ≠ 0) || g.sticky
    let inc : Bool := match r with
      | .near => decide (2 * rem > 2 ^ s) || (decide (2 * rem = 2 ^ s) && (g.sticky || decide (n % 2 = 1)))
      | .zero => false
      | .up => inexact && !neg
      | .down => inexact && neg
      | .sr x => decide (65536 ≤ 65536 * rem / 2 ^ s + x)
    (if inc then n + 1 else n, inexact)

/-- The sign bit of a format, set when negative. -/
def Fmt.sign (f : Fmt) (neg : Bool) : Nat := if neg then 2 ^ (f.width - 1) else 0

/-- m x 2^a exceeds n x 2^b. -/
def gtScaled (m : Nat) (a : Int) (n : Nat) (b : Int) : Bool :=
  if b ≤ a then decide (n < m * 2 ^ (a - b).toNat) else decide (n * 2 ^ (b - a).toNat < m)

/-- What overflow delivers (R117, Table 4.6). -/
def Fmt.overflow (f : Fmt) (r : Rnd) (neg sat : Bool) : Nat :=
  let away : Bool := match r with
    | .near | .sr _ => true
    | .zero => false
    | .up => !neg
    | .down => neg
  if away && !sat then (if f = .e4m3 then f.nan else f.sign neg + f.infBits) else f.sign neg + f.maxBits

/-- Round an exact magnitude to a format: the encoding and OF, UF, NX (R115, R117, R120). Tininess is decided after rounding with an
unbounded exponent. `sat` is the FP8 saturation of Table 4.6. -/
def Fmt.round (f : Fmt) (r : Rnd) (neg : Bool) (g : Mag) (sat : Bool := false) : FRes :=
  if g.m = 0 && !g.sticky then ⟨f.sign neg, 0⟩
  else
    let qu : Int := g.e + (Nat.log2 g.m : Int) - f.fbits
    let q := max qu f.qmin
    let d := roundAt r neg g q
    let u := roundAt r neg g qu
    let maxM := f.maxBits % 2 ^ f.fbits + 2 ^ f.fbits
    let maxQ : Int := f.qmin + (f.maxBits / 2 ^ f.fbits : Nat) - 1
    if gtScaled d.1 q maxM maxQ then ⟨f.overflow r neg sat, fOF ||| fNX⟩
    else
      let tiny := !gtScaled u.1 qu (2 ^ f.fbits) f.qmin && !(decide (u.1 * 2 ^ (qu - min qu f.qmin).toNat = 2 ^ f.fbits * 2 ^ (f.qmin - min qu f.qmin).toNat))
      ⟨f.sign neg + d.1 + (q - f.qmin).toNat * 2 ^ f.fbits,
        if d.2 then (if tiny then fUF ||| fNX else fNX) else 0⟩

/-! ### Exact arithmetic -/

/-- A signed exact value m x 2^e. -/
structure Dy where
  m : Int
  e : Int
deriving DecidableEq, Repr

def Dy.add (a b : Dy) : Dy :=
  let e := min a.e b.e
  ⟨a.m * 2 ^ (a.e - e).toNat + b.m * 2 ^ (b.e - e).toNat, e⟩
def Dy.neg (a : Dy) : Dy := ⟨-a.m, a.e⟩
def Dy.mul (a b : Dy) : Dy := ⟨a.m * b.m, a.e + b.e⟩
/-- a < b. -/
def Dy.lt (a b : Dy) : Bool := decide ((a.add b.neg).m < 0)
/-- a ≤ b. -/
def Dy.le (a b : Dy) : Bool := !b.lt a

/-- The exact value of a finite operand; zero for a NaN or an infinity. -/
def Val.dy : Val → Dy
  | .fin s m e => ⟨if s then -(m : Int) else m, e⟩
  | _ => ⟨0, 0⟩

/-- Round an exact value; `zneg` is the sign an exact zero takes. -/
def Fmt.roundDy (f : Fmt) (r : Rnd) (v : Dy) (zneg : Bool) (sat : Bool := false) : FRes :=
  if v.m = 0 then ⟨f.sign zneg, 0⟩ else f.round r (decide (v.m < 0)) ⟨v.m.natAbs, v.e, false⟩ sat

/-- The sign of an exact zero sum of operands that are not all zeros of one sign: minus only toward −∞; under SR as to nearest (R108). -/
def zeroNeg (r : Rnd) : Bool := decide (r = .down)

/-- The quotient of two magnitudes with enough bits to round any format. -/
def quotMag (m : Nat) (e : Int) (n : Nat) (k : Int) : Mag :=
  let s := 128 + Nat.log2 n
  { m := m * 2 ^ s / n, e := e - k - s, sticky := decide (m * 2 ^ s % n ≠ 0) }

/-- The integer square root of n, found bit by bit from bit `fuel` down. -/
def isqrtFrom (n : Nat) : Nat → Nat → Nat
  | 0, acc => if (acc + 1) * (acc + 1) ≤ n then acc + 1 else acc
  | fuel + 1, acc => isqrtFrom n fuel (if (acc + 2 ^ (fuel + 1)) * (acc + 2 ^ (fuel + 1)) ≤ n then acc + 2 ^ (fuel + 1) else acc)

/-- floor of the square root. -/
def isqrt (n : Nat) : Nat := isqrtFrom n (Nat.log2 n / 2 + 1) 0

/-- The square root of a magnitude with enough bits to round any format. -/
def sqrtMag (m : Nat) (e : Int) : Mag :=
  let e' := if e % 2 = 0 then e else e - 1
  let m' := if e % 2 = 0 then m else 2 * m
  let big := 2 ^ 256 * m'
  let s := isqrt big
  { m := s, e := e' / 2 - 128, sticky := decide (s * s ≠ big) }

/-! ### Operations (Table 5.4, R116) -/

/-- NV when an operand is a signalling NaN. -/
def snanFlag (vs : List Val) : Nat := if vs.any fun v => decide (v = .nan true) then fNV else 0
/-- Some operand is a NaN. -/
def anyNan (vs : List Val) : Bool := vs.any fun v => match v with | .nan _ => true | _ => false
/-- The sign of an operand. -/
def Val.isNeg : Val → Bool
  | .nan _ => false | .inf s => s | .fin s _ _ => s
/-- The operand is a zero. -/
def Val.isZero : Val → Bool
  | .fin _ m _ => decide (m = 0) | _ => false
/-- The operand is an infinity. -/
def Val.isInf : Val → Bool
  | .inf _ => true | _ => false

/-- The sum of exact terms, some of them infinite or NaN, rounded once (R119, R158). A product of a zero and an infinity counts as
invalid in `bad`, and infinities of both signs are invalid too, also beside a NaN (R116). -/
def Fmt.sum (f : Fmt) (r : Rnd) (ts : List Val) (bad : Bool) (sflags : Nat) : FRes :=
  let pinf := ts.any fun v => decide (v = .inf false)
  let ninf := ts.any fun v => decide (v = .inf true)
  if bad || (pinf && ninf) then ⟨f.nan, fNV ||| sflags⟩
  else if anyNan ts then ⟨f.nan, sflags⟩
  else if pinf || ninf then ⟨f.sign ninf + f.infBits, sflags⟩
  else
    let v := ts.foldl (fun a t => a.add t.dy) ⟨0, 0⟩
    let allNeg := ts.all fun t => t.isZero && t.isNeg
    let allPos := ts.all fun t => t.isZero && !t.isNeg
    let z := if allNeg then true else if allPos then false else zeroNeg r
    let q := f.roundDy r v z
    ⟨q.bits, q.flags ||| sflags⟩

/-- The exact product of two operands as a term; NaN when an operand is one. -/
def Val.mul (a b : Val) : Val :=
  if anyNan [a, b] then .nan false
  else if a.isInf || b.isInf then .inf (a.isNeg != b.isNeg)
  else match a, b with
    | .fin s m e, .fin t n k => .fin (s != t) (m * n) (e + k)
    | _, _ => .nan false

/-- A product of a zero and an infinity. -/
def badMul (a b : Val) : Bool := (a.isZero && b.isInf) || (a.isInf && b.isZero)

/-- The operand with its sign inverted. -/
def Val.negate : Val → Val
  | .nan s => .nan s | .inf s => .inf (!s) | .fin s m e => .fin (!s) m e

def Fmt.add (f : Fmt) (r : Rnd) (a b : Nat) : FRes := f.sum r [f.unpack a, f.unpack b] false (snanFlag [f.unpack a, f.unpack b])
def Fmt.sub (f : Fmt) (r : Rnd) (a b : Nat) : FRes := f.sum r [f.unpack a, (f.unpack b).negate] false (snanFlag [f.unpack a, f.unpack b])

def Fmt.mul (f : Fmt) (r : Rnd) (a b : Nat) : FRes :=
  let x := f.unpack a
  let y := f.unpack b
  if badMul x y then ⟨f.nan, fNV⟩
  else match x.mul y with
    | .nan _ => ⟨f.nan, snanFlag [x, y]⟩
    | .inf s => ⟨f.sign s + f.infBits, 0⟩
    | .fin s m e => f.round r s ⟨m, e, false⟩

def Fmt.fma (f : Fmt) (r : Rnd) (a b c : Nat) : FRes :=
  let x := f.unpack a
  let y := f.unpack b
  let z := f.unpack c
  f.sum r [x.mul y, z] (badMul x y) (snanFlag [x, y, z])

def Fmt.div (f : Fmt) (r : Rnd) (a b : Nat) : FRes :=
  let x := f.unpack a
  let y := f.unpack b
  let s := x.isNeg != y.isNeg
  if anyNan [x, y] then ⟨f.nan, snanFlag [x, y]⟩
  else if (x.isInf && y.isInf) || (x.isZero && y.isZero) then ⟨f.nan, fNV⟩
  else if x.isInf then ⟨f.sign s + f.infBits, 0⟩
  else if y.isInf || x.isZero then ⟨f.sign s, 0⟩
  else if y.isZero then ⟨f.sign s + f.infBits, fDZ⟩
  else match x, y with
    | .fin _ m e, .fin _ n k => f.round r s (quotMag m e n k)
    | _, _ => ⟨f.nan, 0⟩

def Fmt.sqrt (f : Fmt) (r : Rnd) (a : Nat) : FRes :=
  match f.unpack a with
  | .nan s => ⟨f.nan, if s then fNV else 0⟩
  | .inf s => if s then ⟨f.nan, fNV⟩ else ⟨f.infBits, 0⟩
  | .fin s m e => if m = 0 then ⟨f.sign s, 0⟩ else if s then ⟨f.nan, fNV⟩ else f.round r false (sqrtMag m e)

/-- x < y of two numbers, −0 below +0 when `zeros` (R116). -/
def Val.lt (zeros : Bool) (x y : Val) : Bool :=
  match x, y with
  | .nan _, _ | _, .nan _ => false
  | .inf s, .inf t => s && !t
  | .inf s, .fin _ _ _ => s
  | .fin _ _ _, .inf t => !t
  | .fin s m e, .fin t n k =>
    if m = 0 ∧ n = 0 then zeros && s && !t else (Val.fin s m e).dy.lt (Val.fin t n k).dy

/-- Numerical equality; false with a NaN. -/
def Val.eq (x y : Val) : Bool := !anyNan [x, y] && !x.lt false y && !y.lt false x

/-- minimumNumber and maximumNumber (R116). -/
def Fmt.minmax (f : Fmt) (wantMax : Bool) (a b : Nat) : FRes :=
  let x := f.unpack a
  let y := f.unpack b
  let fl := snanFlag [x, y]
  let norm := fun n => n % 2 ^ f.width
  if anyNan [x] && anyNan [y] then ⟨f.nan, fl⟩
  else if anyNan [x] then ⟨norm b, fl⟩
  else if anyNan [y] then ⟨norm a, fl⟩
  else if (if wantMax then x.lt true y else y.lt true x) then ⟨norm b, fl⟩ else ⟨norm a, fl⟩

/-- FEQ, FLT and FLE (R146): the truth value and the flags. `quiet` comparisons set NV only for a signalling NaN. -/
def Fmt.cmp (f : Fmt) (kind : Nat) (a b : Nat) : Bool × Nat :=
  let x := f.unpack a
  let y := f.unpack b
  if kind = 0 then (x.eq y, snanFlag [x, y])
  else (if kind = 1 then x.lt false y else x.lt false y || x.eq y, if anyNan [x, y] then fNV else 0)

/-- FNEG and FABS: a NaN gives the canonical NaN and no flag (R146). -/
def Fmt.setSign (f : Fmt) (a : Nat) (neg : Bool) : FRes :=
  match f.unpack a with
  | .nan _ => ⟨f.nan, 0⟩
  | _ => ⟨a % 2 ^ (f.width - 1) + f.sign neg, 0⟩

/-! ### Conversions (R117, R118, R157) -/

/-- Convert a value to a format, saturating FP8 as Table 4.6 says when `sat`. -/
def Fmt.ofVal (f : Fmt) (r : Rnd) (v : Val) (sat : Bool) : FRes :=
  match v with
  | .nan s => ⟨f.nan, if s then fNV else 0⟩
  | .inf s =>
    if f = .e4m3 then ⟨if sat then f.sign s + f.maxBits else f.nan, fNV⟩ else ⟨f.sign s + f.infBits, 0⟩
  | .fin s m e => f.round r s ⟨m, e, false⟩ (sat && decide (f = .e4m3 ∨ f = .e5m2))

/-- The limits of an integer type of width `w`. -/
def intMin (w : Nat) (uns : Bool) : Int := if uns then 0 else -(2 ^ (w - 1))
def intMax (w : Nat) (uns : Bool) : Int := if uns then 2 ^ w - 1 else 2 ^ (w - 1) - 1

/-- Convert a value to an integer of width `w`, rounding and saturating (R118). -/
def intOfVal (w : Nat) (uns : Bool) (r : Rnd) (v : Val) : FRes :=
  let enc := fun (i : Int) => (i % (2 ^ w : Int)).toNat
  match v with
  | .nan _ => ⟨0, fNV⟩
  | .inf s => ⟨enc (if s then intMin w uns else intMax w uns), fNV⟩
  | .fin s m e =>
    let q := roundAt r s ⟨m, e, false⟩ 0
    let i : Int := if s then -(q.1 : Int) else q.1
    if i < intMin w uns then ⟨enc (intMin w uns), fNV⟩
    else if intMax w uns < i then ⟨enc (intMax w uns), fNV⟩
    else ⟨enc i, if q.2 then fNX else 0⟩

/-- An integer as an exact value. -/
def Val.ofInt (i : Int) : Val := .fin (decide (i < 0)) i.natAbs 0

end Sys2Proof.Machine
end

