-- ==== Sys2Proof/Machine/Sched.lean ====
section
/-! DEFINITION. Ready lists: entries, TCBs, contexts, READY, events, dispatch, pre-emption and the end of threads (07_scheduler.md, R129, R130). -/
namespace Sys2Proof.Machine

/-- The core. -/
def Sled.core (d : Sled) (c : CoreId) : Core := mget d.cores c
/-- Replace a core. -/
def Sled.setCore (d : Sled) (c : CoreId) (k : Core) : Sled := { d with cores := mset d.cores c k }
/-- Change a core. -/
def Sled.onCore (d : Sled) (c : CoreId) (f : Core → Core) : Sled := d.setCore c (f (d.core c))
/-- The die a core is on (R21). -/
def dieOf (c : CoreId) : Nat := c.val / 48
/-- The cores of the package in order. -/
def allCores : List CoreId := (List.range 96).map (Fin.ofNat 96)
/-- The die exposes this core (R21). -/
def Sled.coreUp (d : Sled) (c : CoreId) : Bool := decide (c.val % 48 < mget d.units.cores (dieOf c)) && !bit d.units.dieOff (dieOf c)

/-- A slice of a die. -/
def Sled.slice (d : Sled) (die : Nat) : Slice := mget d.slices die
/-- An entry of a slice. -/
def Sled.ent (d : Sled) (die e : Nat) : Entry := mget (d.slice die).entries e
/-- Replace an entry. -/
def Sled.setEnt (d : Sled) (die e : Nat) (v : Entry) : Sled :=
  { d with slices := mmod d.slices die fun s => { s with entries := mset s.entries e v } }
/-- The ready list of a channel. -/
def Sled.readyList (d : Sled) (die ch : Nat) : List Nat := mget (d.slice die).lists ch
/-- Replace the ready list of a channel. -/
def Sled.setList (d : Sled) (die ch : Nat) (l : List Nat) : Sled :=
  { d with slices := mmod d.slices die fun s => { s with lists := mset s.lists ch l } }

/-- The entries that hold a thread: (die, index, entry). -/
def Sled.threads (d : Sled) : List (Nat × Nat × Entry) :=
  [0, 1].flatMap fun die => ((d.slice die).entries.filter fun e => decide (e.2.st ≠ .none)).map fun e => (die, e.1, e.2)

/-- How many entries of a slice meet `f` (R232 counts every state but NONE). -/
def Sled.usedBy (d : Sled) (die : Nat) (f : Entry → Bool) : Nat :=
  (d.slice die).entries.countP fun e => decide (e.2.st ≠ .none) && f e.2

/-- Cores of the sled running a tenant's threads (SCH_TRUN). -/
def Sled.runningCores (d : Sled) (t : TenantId) : Nat :=
  d.cores.countP fun k => decide (k.2.entry ≠ none ∧ k.2.tenant = t)

/-- The item with a serial number. -/
def Sled.item (d : Sled) (id : Nat) : Option Item := d.items.find? fun i => decide (i.id = id)
/-- Change an item. -/
def Sled.onItem (d : Sled) (id : Nat) (f : Item → Item) : Sled :=
  { d with items := d.items.map fun i => if i.id = id then f i else i }
/-- An item ends: its completion word is due (R73). -/
def Sled.finish (d : Sled) (id : Nat) (status fault : Byte) : Sled :=
  d.onItem id fun i => { i with st := .finished, status := status, fault := fault }
/-- The item waits for re-admission (R244). -/
def Sled.itemCarried (d : Sled) (id : Nat) : Bool := (d.item id).any fun i => decide (i.st = .carried)

/-- Rays, probes or kernels of an item are left (R282, R312, R374). -/
def Sled.workLeft (d : Sled) (id : Nat) : Bool :=
  (d.engines.any fun p => p.2.slots.any fun q => decide (q.2.job ≠ .none ∧ q.2.item = id)) || d.depots.any fun p => p.2.queue.any fun k => decide (k.item = id)
/-- The item has threads. -/
def Sled.hasThreads (d : Sled) (id : Nat) : Bool := d.threads.any fun r => decide (r.2.2.item = id)

/-- The twin state of a tenant. -/
def Sled.twin (d : Sled) (t : TenantId) : TwinT := mget d.twins t
/-- Change the twin state of a tenant. -/
def Sled.onTwin (d : Sled) (t : TenantId) (f : TwinT → TwinT) : Sled := { d with twins := mmod d.twins t f }
/-- The tenant waits for the Rack Factor or for step 4c (R389, R396). -/
def Sled.twinHolds (d : Sled) (t : TenantId) : Bool :=
  (d.twin t).waiting || (d.twin t).held || (d.mirror t && d.bell.admitted && decide (d.bell.settle ∈ [1, 2, 3, 4]))
/-- Engine work of an item may go on: in the work window, and not while the item is carried, or its tenant resets or waits for its twin. -/
def Sled.mayRun (d : Sled) (id : Nat) : Bool :=
  d.bell.work && match d.item id with
    | some i => decide (i.st ≠ .carried) && !d.twinHolds i.tenant && !d.resetBusy i.tenant
    | none => true

/-! ### TCB words and handles -/

/-- The handle of an entry (Table 7.2). -/
def handleOf (die e : Nat) (gen : BitVec 8) : Word32 := BitVec.ofNat 32 (2 ^ 24 * gen.toNat + 2 ^ 12 * die + e)

/-- The code of a thread state (Table 7.1). -/
def ThreadState.code : ThreadState → Nat
  | .none => 0 | .ready => 1 | .running => 2 | .parked => 3 | .blocked => 4

/-- The slice stores bytes at a PA it latched for a tenant, on this sled or another (R208, R230). -/
def Sled.paWrite (x : Ctx) (d : Sled) (t : TenantId) (pa : Nat) (bs : List Byte) : Sled :=
  match d.target x pa with
  | .mem off => (d.stall off bs.length).coWrite x off bs
  | .farMem _ _ => d.farWrite t pa bs
  | _ => d

/-- The slice reads bytes at a PA it latched for a tenant, with their poison. -/
def Sled.paRead (x : Ctx) (d : Sled) (t : TenantId) (pa n : Nat) : Sled × List Byte × List Bool :=
  match d.target x pa with
  | .mem off => (d.stall off n).coRead x off n
  | .farMem _ _ => d.farRead x t pa n
  | _ => (d, List.replicate n 0, List.replicate n true)

/-- Write a TCB word. -/
def Sled.tcbPut (x : Ctx) (d : Sled) (t : TenantId) (tcb off : Nat) (v : Word64) : Sled := d.paWrite x t (tcb + off) (toBytes v 8)
/-- Read a TCB word: the sled afterwards, the word, and whether it is uncorrectable. -/
def Sled.tcbGet (x : Ctx) (d : Sled) (t : TenantId) (tcb off : Nat) : Sled × Word64 × Bool :=
  let r := d.paRead x t (tcb + off) 8
  (r.1, ofBytes 64 r.2.1, r.2.2.any id)

/-- Write the HANDLE and STATE word of an entry's TCB. -/
def Sled.tcbState (x : Ctx) (d : Sled) (die e : Nat) : Sled :=
  let v := d.ent die e
  d.tcbPut x v.tenant v.tcb 0x20 (BitVec.ofNat 64 (2 ^ 32 * v.st.code + (handleOf die e v.gen).toNat))

/-- Update a TCB word, as an event does, unless it is uncorrectable (R519). -/
def Sled.tcbRmw (x : Ctx) (d : Sled) (t : TenantId) (tcb off : Nat) (f : Word64 → Word64) : Sled :=
  let r := d.tcbGet x t tcb off
  if r.2.2 then r.1 else r.1.tcbPut x t tcb off (f r.2.1)

/-- LASTCORE and RUNS at a dispatch on die-local core `k` (Table 7.2): a whole word, which clears its poison (R519). RUNS of a word that reads uncorrectable is
not stated: a free value (log 125). -/
def Sled.tcbRuns (x : Ctx) (d : Sled) (t : TenantId) (tcb k : Nat) : Sled :=
  let r := d.tcbGet x t tcb 0x38
  let d := if r.2.2 then r.1.stepFree else r.1
  let old := if r.2.2 then (Config.freeWord x.sl r.1.freeCtr).toNat else r.2.1.toNat
  d.tcbPut x t tcb 0x38 (BitVec.ofNat 64 (2 ^ 16 * ((old / 2 ^ 16 + 1) % 2 ^ 48) + k))

/-! ### Eligibility and order -/

/-- Registers of a channel: MODE, PREEMPT, GFX, RANK, QUOTA (Table 7.6). -/
def Sled.chCfg (d : Sled) (die ch : Nat) : Word32 := d.r32 .schChCfg die ch

/-- A thread is eligible for dispatch where `n` cores of its tenant are taken (R233). -/
def Sled.eligibleAt (d : Sled) (v : Entry) (n : Nat) : Bool :=
  d.active v.tenant && !d.resetBusy v.tenant && !d.fenced v.tenant && !d.itemCarried v.item && !d.twinHolds v.tenant
    && decide (n < fld (d.ten v.tenant).allot 6 0) && d.bell.work
/-- A thread is eligible for dispatch (R233). -/
def Sled.eligible (d : Sled) (v : Entry) : Bool := d.eligibleAt v (d.runningCores v.tenant)

/-- The channels a core takes work from: the WAITWORK mask ANDed with SCH_CORE.MASK, or the latter when that is empty (R234). -/
def Sled.effMask (d : Sled) (c : CoreId) : BitVec 8 :=
  let own : BitVec 8 := BitVec.ofNat 8 (d.r32 .schCore (dieOf c) (c.val % 48)).toNat
  match (d.core c).mask with
  | none => own
  | some m =>
    let m := if m = 0 then 0xFF#8 else m
    if m &&& own = 0 then own else m &&& own

/-- A core is idle: it is exposed, runs no thread and no debug halt holds it. -/
def Sled.idleCore (d : Sled) (c : CoreId) : Bool :=
  d.coreUp c && decide ((d.core c).entry = none) && !(d.core c).halted

/-- Channels in the order of a search: ascending RANK, then channel number (R234). -/
def Sled.channelOrder (d : Sled) (die : Nat) : List Nat :=
  (List.range 8).flatMap fun rank => (List.range 8).filter fun ch => decide (fld (d.chCfg die ch) 6 4 = rank)

/-- X outranks Y (R236). -/
def Sled.outranks (d : Sled) (die : Nat) (a b : Entry) : Bool :=
  let ra := fld (d.chCfg die a.channel) 6 4
  let rb := fld (d.chCfg die b.channel) 6 4
  if a.channel ≠ b.channel then decide (ra < rb ∨ (ra = rb ∧ a.channel < b.channel))
  else if bit (d.chCfg die a.channel) 0 then decide (a.deadline.toNat < b.deadline.toNat) else decide (a.level < b.level)

/-- Insert an entry in a list: before the first entry that `later` says comes after it. -/
def insertBefore (later : Nat → Bool) (e : Nat) : List Nat → List Nat
  | [] => [e]
  | a :: l => if later a then e :: a :: l else a :: insertBefore later e l

/-- The thread a core runs, or is to run: the one its SCHED or its reservation is for, while that is ready (R237). -/
def Sled.dueOn (d : Sled) (c : CoreId) : Option Entry :=
  let k := d.core c
  let ready := fun (e : Option Nat) => (e.map (d.ent (dieOf c))).filter fun v => decide (v.st = .ready)
  match ready (k.sched.bind (·.forEntry)), k.entry with
  | some v, _ => some v
  | none, some e => some (d.ent (dieOf c) e)
  | none, none => ready k.reserved

/-- How many cores run a tenant's threads, or are to run them. -/
def Sled.dueCores (d : Sled) (t : TenantId) : Nat := allCores.countP fun c => (d.dueOn c).any fun v => decide (v.tenant = t)

/-- The threads that the idle cores of a die take by R234 as the lists stand, in core order. -/
def Sled.idleTakes (d : Sled) (die : Nat) : List Nat :=
  (allCores.filter fun c => decide (dieOf c = die) && d.idleCore c && (d.dueOn c).isNone).foldl (fun (l : List Nat) c =>
    let fits := fun a => !l.contains a
      && d.eligibleAt (d.ent die a) (d.dueCores (d.ent die a).tenant + l.countP fun b => decide ((d.ent die b).tenant = (d.ent die a).tenant))
    match ((d.channelOrder die).filter fun ch => bit (d.effMask c) ch).findSome? fun ch => (d.readyList die ch).find? fits with
    | some a => l ++ [a]
    | none => l) []

/-- The victim for X (R237), where `n` cores of its tenant are taken: among candidates, the one every other's thread outranks, and of equals the one dispatched last. -/
def Sled.victim (d : Sled) (die : Nat) (v : Entry) (n : Nat) : Option CoreId :=
  let cand := allCores.filter fun c =>
    decide (dieOf c = die) && bit (d.effMask c) v.channel && decide ((d.core c).sched = none) &&
      match (d.core c).entry with
      | none => false
      | some e => d.outranks die v (d.ent die e) && d.eligibleAt v (n - if (d.ent die e).tenant = v.tenant then 1 else 0)
  let th := fun (c : CoreId) => d.ent die ((d.core c).entry.getD 0)
  cand.find? fun c => cand.all fun o =>
    decide (o = c) || d.outranks die (th o) (th c)
      || (!(d.outranks die (th c) (th o)) && decide ((d.core o).serial < (d.core c).serial))

/-- After X entered a list: raise SCHED on a victim when PREEMPT is 1 and no idle core takes X under R234 (R237). A tenant at its CORES may pre-empt its own. -/
def Sled.preemptFor (x : Ctx) (d : Sled) (die e : Nat) : Sled :=
  let v := d.ent die e
  let idle := d.idleTakes die
  if bit (d.chCfg die v.channel) 1 && bit (d.r32 .schCtl die) 0 && !idle.contains e then
    match d.victim die v (d.dueCores v.tenant + idle.countP fun a => decide ((d.ent die a).tenant = v.tenant)) with
    | some c => (d.onCore c fun k => { k with sched := some ⟨x.now, some e, false⟩ }).bump32 .schPreempts die
    | none => d
  else d

/-- The tenant holding the sled's compositor context, if any (R344). -/
def Sled.compHolder (d : Sled) : Option TenantId :=
  if bit (d.r32 .rfeCmpCtl) 0 then some (tenantOf (fld (d.r32 .rfeCmpCtl) 29 24)) else none

/-- The level a live thread enters a list with: the holder of the compositor context alone uses level 0 on the GFX channel (R344); another tenant's thread whose TCB says 0 there
enters at level 1 (DESIGN CHOICE, log 129). -/
def Sled.levelIn (d : Sled) (die : Nat) (v : Entry) (level : Nat) : Nat :=
  if level = 0 ∧ bit (d.chCfg die v.channel) 2 ∧ d.compHolder ≠ some v.tenant then 1 else level

/-- A thread enters its channel's list as READY (R231); `front` puts it at the head of its level. LEVEL or DEADLINE is read
from the TCB now, and an uncorrectable one reads 63 or 2^64 - 1 (R229, R519). -/
def Sled.enlist (x : Ctx) (d : Sled) (die e : Nat) (front : Bool) : Sled :=
  let v := d.ent die e
  let edf := bit (d.chCfg die v.channel) 0
  let lv := d.tcbGet x v.tenant v.tcb 0x08
  let level := if lv.2.2 then 63 else d.levelIn die v (fld lv.2.1 13 8)
  let dl := if edf then lv.1.tcbGet x v.tenant v.tcb 0x10 else (lv.1, v.deadline, false)
  let deadline := if dl.2.2 then BitVec.allOnes 64 else dl.2.1
  let d := dl.1.setEnt die e { v with st := .ready, level := level, deadline := deadline }
  let later := fun a =>
    let o := d.ent die a
    if edf then decide (deadline.toNat < o.deadline.toNat)
    else if front then decide (level ≤ o.level) else decide (level < o.level)
  let d := (d.setList die v.channel (insertBefore later e (d.readyList die v.channel))).tcbState x die e
  d.preemptFor x die e

/-! ### Contexts (R129, R130) -/

/-- A scalar register as it is read: sz reads zero. -/
def Core.getS (k : Core) (n : Nat) : Word64 := if n = 63 then 0 else mget k.s n
/-- A predicate register as it is read: p0 reads all ones. -/
def Core.getP (k : Core) (n : Nat) : Word64 := if n = 0 then BitVec.allOnes 64 else mget k.p n

/-- Poison marks of registers `lo` to `hi - 1` of a set, one bit each. -/
def poisonMarks (m : Map (Option Word64)) (n : Nat) : Nat :=
  (List.range n).foldl (fun a i => a + if ((mget m i : Option Word64).isSome) then 2 ^ i else 0) 0

/-- Bytes 0x0000 to 0x03FF of the context area (Table 4.8), with STATE as given. -/
def Core.ctxLow (k : Core) (st : Word64) : List Byte :=
  ((List.range 63).flatMap fun i => toBytes (mget k.s i : Word64) 8) ++ toBytes k.pc 8 ++ toBytes st 8 ++ toBytes k.fpcsr 8
    ++ toBytes k.srseed 8 ++ toBytes k.srcount 8 ++ toBytes (BitVec.ofNat 64 (poisonMarks k.poisonS 63)) 8
    ++ toBytes (BitVec.ofNat 64 ((if bit st 4 then poisonMarks k.poisonW 32 else 0)
        + 2 ^ 32 * (if bit st 5 then poisonMarks k.poisonT 8 else 0))) 8
    ++ ((List.range 16).flatMap fun i => toBytes (k.getP i) 8) ++ toBytes k.epc 8 ++ toBytes k.ecause 8 ++ toBytes k.eaddr 8
    ++ toBytes k.estate 8 ++ toBytes k.tvec 8 ++ toBytes k.kscratch0 8 ++ toBytes k.kscratch1 8 ++ List.replicate 0x118 0

/-- Save a core's context at a PA: wide registers only when WD is 1, tiles only when TD is 1 (R129). -/
def Sled.saveCtx (x : Ctx) (d : Sled) (c : CoreId) (pa : Nat) (st : Word64) : Sled :=
  let k := d.core c
  let put := fun (d : Sled) off bs => d.paWrite x k.tenant (pa + off) bs
  let d := put d 0 (k.ctxLow st)
  let d := if bit st 4 then (List.range 32).foldl (fun d i => put d (0x400 + 256 * i) (toBytes (mget k.w i : BitVec 2048) 256)) d else d
  if bit st 5 then (List.range 8).foldl (fun d i => put d (0x2400 + 1024 * i) (toBytes (mget k.t i : BitVec 8192) 1024)) d else d

/-- Word `i` of the bytes read from a context area. -/
def ctxWord (bs : List Byte) (off : Nat) : Word64 := ofBytes 64 ((bs.drop off).take 8)

/-- The table of `n` registers given by `f`. -/
def tableOf {α : Type} [Inhabited α] [DecidableEq α] (n : Nat) (f : Nat → α) : Map α :=
  (List.range n).foldl (fun m i => mset m i (f i)) []

/-- Load a context (R129): clean sets read zero and unpoisoned, PC has bits [3:0] cleared, and a register restored poisoned keeps VA 0.
A register whose saved word is uncorrectable is poisoned as by a load (DEDUCED, log 26). -/
def Sled.loadCtx (x : Ctx) (d : Sled) (c : CoreId) (t : TenantId) (pa : Nat) : Sled :=
  let r := d.paRead x t pa 0x400
  let bs := r.2.1
  let st := ctxWord bs 0x200 &&& 0x3F
  let w := if bit st 4 then r.1.paRead x t (pa + 0x400) 0x2000 else (r.1, [], [])
  let ti := if bit st 5 then w.1.paRead x t (pa + 0x2400) 0x2000 else (w.1, [], [])
  let mark := fun (bad : Bool) => if bad then some (0 : Word64) else none
  let badIn := fun (f : List Bool) (off n : Nat) => ((f.drop off).take n).any id
  let pm := ctxWord bs 0x220
  let pm2 := ctxWord bs 0x228
  ti.1.onCore c fun k => { k with
    s := tableOf 63 fun i => ctxWord bs (8 * i)
    w := if bit st 4 then tableOf 32 fun i => ofBytes 2048 ((w.2.1.drop (256 * i)).take 256) else []
    t := if bit st 5 then tableOf 8 fun i => ofBytes 8192 ((ti.2.1.drop (1024 * i)).take 1024) else []
    p := tableOf 16 fun i => if i = 0 then 0 else ctxWord bs (0x230 + 8 * i)
    poisonS := tableOf 63 fun i => mark (bit pm i || badIn r.2.2 (8 * i) 8)
    poisonW := if bit st 4 then tableOf 32 fun i => mark (bit pm2 i || badIn w.2.2 (256 * i) 256) else []
    poisonT := if bit st 5 then tableOf 8 fun i => mark (bit pm2 (32 + i) || badIn ti.2.2 (1024 * i) 1024) else []
    pc := ctxWord bs 0x1F8 &&& ~~~0xF#64
    state := st
    fpcsr := ctxWord bs 0x208 &&& 0x1F
    srseed := ctxWord bs 0x210
    srcount := ctxWord bs 0x218
    epc := ctxWord bs 0x2B0
    ecause := ctxWord bs 0x2B8 &&& 0xFFFF
    eaddr := ctxWord bs 0x2C0
    estate := ctxWord bs 0x2C8 &&& 0x3F
    tvec := ctxWord bs 0x2D0 &&& ~~~0x1FF#64
    kscratch0 := ctxWord bs 0x2D8
    kscratch1 := ctxWord bs 0x2E0 }

/-- An instruction synchronization of a core (R124): from here it executes the text that memory now holds, on this sled and on others. Text that no running core can
still execute is dropped. -/
def Sled.syncText (x : Ctx) (d : Sled) (c : CoreId) : Sled :=
  let d := d.onCore c fun k => { k with textSeq := d.textSeq, farSeq := tableOf 16 x.marks }
  let low := x.lows.foldl min (d.cores.foldl (fun a k => if k.2.entry.isSome then min a k.2.textSeq else a) d.textSeq)
  { d with oldText := d.oldText.filter fun o => decide (low ≤ o.seq) }

/-! ### Dispatch, and the ends of a thread's run -/

/-- Dispatch a thread onto a core (R235). -/
def Sled.dispatch (x : Ctx) (d : Sled) (c : CoreId) (e : Nat) : Sled :=
  let die := dieOf c
  let v := d.ent die e
  let d := (d.setList die v.channel ((d.readyList die v.channel).filter (· ≠ e))).setEnt die e { v with st := .running }
  let d := d.tcbState x die e
  let d := d.tcbRuns x v.tenant v.tcb (c.val % 48)
  let last := d.cores.foldl (fun a k => max a k.2.serial) 0
  let d := d.loadCtx x c v.tenant v.ctx
  let d := d.onCore c fun k => { k with entry := some e, tenant := v.tenant, reserved := none, sched := none, serial := last + 1, flights := [] }
  d.syncText x c

/-- The first eligible thread for an idle core (R234). -/
def Sled.firstFor (d : Sled) (c : CoreId) : Option Nat :=
  let die := dieOf c
  ((d.channelOrder die).filter fun ch => bit (d.effMask c) ch).findSome? fun ch =>
    (d.readyList die ch).find? fun e => d.eligible (d.ent die e)

/-- The core gives its thread up: it becomes idle, keeping a reservation made for another thread (R237). -/
def Sled.releaseCore (d : Sled) (c : CoreId) : Sled :=
  d.onCore c fun k => { k with entry := none, reserved := k.sched.bind (·.forEntry), sched := none, flights := [] }

/-- A thread ends (R228): its entry is freed, its TCB STATE is NONE, and its item completes with its last thread (R241). The completion word of an
item with rays, probes or kernels left waits for them (R73; DEDUCED, log 131); where such an item is carried it stays so. -/
def Sled.endThread (x : Ctx) (d : Sled) (die e : Nat) (status : Byte) : Sled :=
  let v := d.ent die e
  let d := (d.setList die v.channel ((d.readyList die v.channel).filter (· ≠ e))).setEnt die e { v with st := .none, wake := false }
  let d := d.tcbState x die e
  let d := d.setEnt die e { (default : Entry) with gen := v.gen }
  if d.hasThreads v.item || (d.itemCarried v.item && d.workLeft v.item) then d else d.finish v.item status 0

/-- A running thread is pre-empted (R238): its context is saved, with SMFORCED as given, and it enters its list at the head of its level. -/
def Sled.preempt (x : Ctx) (d : Sled) (c : CoreId) (forced : Bool) : Sled :=
  match (d.core c).entry with
  | none => d
  | some e =>
    let die := dieOf c
    let st := setBit (d.core c).state 3 forced
    let d := d.saveCtx x c (d.ent die e).ctx st
    (d.releaseCore c).enlist x die e true

/-! ### Events (R239, R240) -/

/-- Post an event of a kind to a handle for a tenant. -/
def Sled.event (x : Ctx) (d : Sled) (t : TenantId) (kind : Nat) (h : Word32) : Sled :=
  let die := fld h 12 12
  let e := fld h 11 0
  let v := d.ent die e
  if fld h 31 24 = 0 ∨ fld h 31 24 ≠ v.gen.toNat ∨ fld h 23 13 ≠ 0 ∨ v.st = .none ∨ v.tenant ≠ t then d.bump32 .schStray die
  else
    let d := (d.tcbRmw x t v.tcb 0x28 fun w => w ||| BitVec.ofNat 64 (2 ^ kind)).tcbRmw x t v.tcb 0x30 fun w => w + 1
    match v.st with
    | .parked => d.enlist x die e (d.itemCarried v.item)
    | .running | .blocked => d.setEnt die e { d.ent die e with wake := true }
    | _ => d

/-! ### READY (R226, R230, R246) -/

inductive ReadyRes where
  | accepted | refused | badArgs | existing
  | fault (f : TFault)
deriving DecidableEq, Repr

/-- A PA a thread may not use: config space (R230). -/
def Sled.devicePa (x : Ctx) (d : Sled) (pa : Nat) : Bool :=
  match d.target x pa with
  | .device _ | .farDevice _ _ => true
  | _ => false

/-- A READY of the thread whose TCB is at a VA, for a tenant, from a kernel-mode requester; a thread it creates joins `item`. `kind1` posts the
GATE event of R242. Faults of the TCB and of the context pages come before every status (R230, R518). -/
def Sled.ready (x : Ctx) (d : Sled) (t : TenantId) (va : Nat) (item : Nat) (kind1 : Bool) : Sled × ReadyRes :=
  let r := d.translate x t true .store va
  match r.2 with
  | .fault f => (r.1, .fault f)
  | .ok tcb =>
    let d := r.1
    if d.devicePa x tcb then (d, .fault { code := 2, va := va })
    else match d.threads.find? fun q => decide (q.2.2.tcb = tcb ∧ q.2.2.tenant = t) with
    | some q =>
      if kind1 then (d, .existing)
      else (d.event x t 0 (handleOf q.1 q.2.1 q.2.2.gen), .existing)
    | none =>
      let held := d.threads.any fun q => decide (q.2.2.tcb = tcb)
      let c := d.tcbGet x t tcb 0
      let g := c.1.tcbGet x t tcb 8
      let l := g.1.tcbGet x t tcb 16
      if c.2.2 then (l.1, .badArgs)
      else
      let cfg := g.2.1
      let w := l.1.translateList x t true .store (pieces c.2.1.toNat 0x4400)
      let dev := (w.2.1.filter fun p => w.1.devicePa x p.pa).foldl (fun f p => some (firstFault f { code := 2, va := p.va })) w.2.2
      match dev with
      | some f => (w.1, .fault f)
      | none =>
        let d := w.1
        let ch := fld cfg 2 0
        let dieF := fld cfg 17 16
        let off := fun die => bit d.units.dieOff die
        let free := fun die => 4096 - d.usedBy die fun _ => true
        let ok := fun die => bit (d.r32 .schCtl die) 0 && !off die
        let die? : Option Nat :=
          if dieF = 3 then
            (if ok 0 && ok 1 then some (if free 0 < free 1 then 1 else 0) else if ok 0 then some 0 else if ok 1 then some 1 else none)
          else some dieF
        let die := die?.getD 0
        if g.2.2 || l.2.2 || held || decide (va % 256 ≠ 0 ∨ fld cfg 7 3 ≠ 0 ∨ fld cfg 15 14 ≠ 0 ∨ fld cfg 63 18 ≠ 0 ∨ dieF = 2 ∨ w.2.1.length ≠ 1)
            || (decide (dieF < 2) && off dieF)
            || (decide (fld cfg 13 8 = 0) && bit (d.chCfg die ch) 2 && decide (d.compHolder ≠ some t)) then (d, .badArgs)
        else if die? = none ∨ !ok die ∨ 4096 ≤ d.usedBy die (fun _ => true) ∨ fld (d.chCfg die ch) 20 8 ≤ d.usedBy die (fun v => decide (v.channel = ch))
            ∨ fld (d.r32 .schTlimit die t) 12 0 ≤ d.usedBy die (fun v => decide (v.tenant = t)) then (d.bump32 .schRefused die, .refused)
        else
          let e := ((List.range 4096).find? fun e => decide ((d.ent die e).st = .none)).getD 0
          let gen := if (d.ent die e).gen = 255 then 1 else (d.ent die e).gen + 1
          let v : Entry := { st := .ready, gen := gen, tcb := tcb, ctx := (w.2.1.head?.map (·.pa)).getD 0, tenant := t, channel := ch, item := item }
          let d := (d.setEnt die e v).tcbState x die e
          let d := if kind1 then (d.tcbRmw x t tcb 0x28 fun w => w ||| 2).tcbRmw x t tcb 0x30 fun w => w + 1 else d
          (d.enlist x die e false, .accepted)

end Sys2Proof.Machine
end

