-- ==== Sys2Proof/Machine/Traversal.lean ====
section
/-! DEFINITION. The Traversal Engine's tests and its walk of one ray: formats, box test, triangle test, instances, callbacks (08_traversal.md). -/
namespace Sys2Proof.Machine

/-! ### Reading blocks -/

/-- `n` bytes of a record from `i`, as a number. -/
def num (bs : List Byte) (i n : Nat) : Nat := bytesNat ((bs.drop i).take n)
/-- Bytes `i` to `i + n - 1` are zero. -/
def zeros (bs : List Byte) (i n : Nat) : Bool := decide (num bs i n = 0)

/-- What an engine's read met (R260): the bytes, a translation fault, or a failed access without a fault record. -/
inductive ERead where
  | ok (bytes : List Byte)
  | fault (f : TFault)
  | failed
deriving DecidableEq, Repr

/-- An engine reads bytes through the tenant's tables in user mode; another sled's memory and Device regions are never accessed (R260). -/
def Sled.eRead (x : Ctx) (d : Sled) (t : TenantId) (va n : Nat) : Sled × ERead :=
  let r := d.translateList x t false .load (pieces va n)
  match r.2.2 with
  | some f => (r.1, .fault f)
  | none =>
    r.2.1.foldl (fun acc p =>
      match acc.2, acc.1.target x p.pa with
      | .ok bs, .mem off =>
        let q := ((acc.1.stall off p.len).tallyMiss t off p.len).coRead x off p.len
        if q.2.2.any id then (q.1, .failed) else (q.1, .ok (bs ++ q.2.1))
      | .ok _, _ => (acc.1, .failed)
      | o, _ => (acc.1, o)) (r.1, .ok [])

/-- An engine writes bytes through the tenant's tables in user mode, or meets a fault; a far or Device PA counts as PERM (R260). -/
def Sled.eWrite (x : Ctx) (d : Sled) (t : TenantId) (va : Nat) (bs : List Byte) : Sled × Option TFault :=
  let r := d.translateList x t false .store (pieces va bs.length)
  match r.2.2 with
  | some f => (r.1, some f)
  | none =>
    match r.2.1.find? fun p => match r.1.target x p.pa with | .mem _ => false | _ => true with
    | some p => (r.1, some { code := 2, va := p.va })
    | none =>
      (r.2.1.foldl (fun (d : Sled) p => match d.target x p.pa with
        | .mem off => ((d.stall off p.len).tallyMiss t off p.len).coWrite x off ((bs.drop p.pos).take p.len)
        | _ => d) r.1, none)

/-- An engine reads the tree block at a VA: from its node cache, or from memory, which counts a miss and leaves the block there. The node cache keeps a block that a Depot
rewrites until it is discarded (R289). -/
def Sled.treeRead (x : Ctx) (d : Sled) (e : Nat) (t : TenantId) (va : Nat) : Sled × ERead :=
  let r := d.translateList x t false .load (pieces va 128)
  match r.2.2, r.2.1 with
  | some f, _ => (r.1, .fault f)
  | none, [p] =>
    match r.1.target x p.pa with
    | .mem off =>
      match (mget (mget r.1.engines e : Engine).nodes (off / 128) : Option (BitVec 1024)) with
      | some b => (r.1, .ok (toBytes b 128))
      | none =>
        let q := ((r.1.stall off 128).tallyMiss t off 128).coRead x off 128
        let d := q.1.w64 .teNcMiss (q.1.r64 .teNcMiss e + 1) e
        if q.2.2.any id then (d, .failed)
        else ({ d with engines := mmod d.engines e fun (g : Engine) => { g with nodes := mset g.nodes (off / 128) (some (ofBytes 1024 q.2.1)) } }, .ok q.2.1)
    | _ => (r.1, .failed)
  | none, _ => (r.1, .failed)

/-! ### FP32 helpers -/

/-- FP32 operations, rounded to nearest even, by their bits. -/
def fAdd (a b : Nat) : Nat := (Fmt.fp32.add .near a b).bits
def fSub (a b : Nat) : Nat := (Fmt.fp32.sub .near a b).bits
def fMul (a b : Nat) : Nat := (Fmt.fp32.mul .near a b).bits
def fDiv (a b : Nat) : Nat := (Fmt.fp32.div .near a b).bits
def dAdd (a b : Nat) : Nat := (Fmt.fp64.add .near a b).bits
def dSub (a b : Nat) : Nat := (Fmt.fp64.sub .near a b).bits
def dMul (a b : Nat) : Nat := (Fmt.fp64.mul .near a b).bits
def dDiv (a b : Nat) : Nat := (Fmt.fp64.div .near a b).bits
/-- FP32 to FP64 and back. -/
def toF64 (a : Nat) : Nat := (Fmt.fp64.ofVal .near (Fmt.fp32.unpack a) false).bits
def toF32 (a : Nat) : Nat := (Fmt.fp32.ofVal .near (Fmt.fp64.unpack a) false).bits
/-- Comparisons of FP32 numbers by their bits; false with a NaN. -/
def fLt (a b : Nat) : Bool := (Fmt.fp32.unpack a).lt false (Fmt.fp32.unpack b)
def fEq (a b : Nat) : Bool := (Fmt.fp32.unpack a).eq (Fmt.fp32.unpack b)
def fLe (a b : Nat) : Bool := fLt a b || fEq a b
def fMax (a b : Nat) : Nat := if fLt a b then b else a
def fMin (a b : Nat) : Nat := if fLt b a then b else a
/-- The FP32 encoding is finite. -/
def fFinite (a : Nat) : Bool := match Fmt.fp32.unpack a with | .fin _ _ _ => true | _ => false
def fZero (a : Nat) : Bool := (Fmt.fp32.unpack a).isZero
def fIsNeg (a : Nat) : Bool := fLt a 0
def fInf : Nat := 0x7F800000
def fNInf : Nat := 0xFF800000

/-! ### The box test (R263) -/

/-- A node read from its 128 bytes, if it breaks no rule of Tables 8.1 and 8.2 (R290). -/
structure Child where
  index : Nat
  ty : Nat
  q : List Nat
  kind : Nat
  blocks : Nat
  va : Nat
deriving DecidableEq, Repr

structure BvhNode where
  origin : List Nat
  exp : List Nat
  children : List Child
deriving DecidableEq, Repr

def parseNode (bs : List Byte) : Option BvhNode :=
  let ct := num bs 0x10 2
  let base := num bs 0x12 6
  let ch := (List.range 8).filterMap fun c =>
    let ty := ct / 4 ^ c % 4
    if ty = 0 then none
    else
      let o := 0x20 + 12 * c
      let fl := num bs (o + 6) 2
      some (⟨c, ty, (List.range 6).map fun i => num bs (o + i) 1, fl % 4, fl / 4 % 8 + 1, (base + num bs (o + 8) 4) * 128⟩, fl)
  let org := [num bs 0 4, num bs 4 4, num bs 8 4]
  let ex := [num bs 12 1, num bs 13 1, num bs 14 1]
  let okChild := fun (p : Child × Nat) =>
    decide (p.2 / 32 = 0) && (if p.1.ty = 2 then decide (p.1.kind ≠ 3 ∧ (p.1.kind = 0 ∨ p.1.blocks = 1)) else decide (p.1.blocks = 1))
  if org.all fFinite && ex.all (· ≠ 255) && zeros bs 0x0F 1 && zeros bs 0x18 8 && ch.all okChild
  then some ⟨org, ex, ch.map (·.1)⟩ else none

/-- A coordinate of a child box, exact and then rounded outward (R263). -/
def boxSide (r : Rnd) (origin ex q : Nat) : Nat :=
  (Fmt.fp32.roundDy r ((Fmt.fp32.unpack origin).dy.add ⟨q, (ex : Int) - 127⟩) false).bits

/-- (side - o) / d, exact, rounded once. -/
def boxQuot (r : Rnd) (side o d : Nat) : Nat :=
  match Fmt.fp32.unpack side, Fmt.fp32.unpack d with
  | .inf s, v => if s = v.isNeg then fInf else fNInf
  | v, .fin ds m e =>
    let nmr := v.dy.add (Fmt.fp32.unpack o).dy.neg
    if nmr.m = 0 then 0
    else (Fmt.fp32.round r (decide (nmr.m < 0) != ds) (quotMag nmr.m.natAbs nmr.e m e)).bits
  | _, _ => 0

/-- near and far on one axis, or none when the child is empty or missed. -/
def boxAxis (lo hi o d : Nat) : Option (Nat × Nat) :=
  if fLt hi lo then none
  else if fZero d then (if fLt o lo || fLt hi o then none else some (fNInf, fInf))
  else some (fMin (boxQuot .down lo o d) (boxQuot .down hi o d), fMax (boxQuot .up lo o d) (boxQuot .up hi o d))

/-- The lo and hi of a child on axis `a`. -/
def childSide (n : BvhNode) (c : Child) (a : Nat) : Nat × Nat :=
  (boxSide .down (n.origin.getD a 0) (n.exp.getD a 0) (c.q.getD a 0), boxSide .up (n.origin.getD a 0) (n.exp.getD a 0) (c.q.getD (a + 3) 0))

/-- tnear of a child that the ray hits (R263). Where a component of the ray in this space is not finite, an axis that is still misses the child, and the rest is
not stated: a free value (log 27). -/
def boxHit (n : BvhNode) (c : Child) (o d : List Nat) (tmin tcur : Nat) : Option Nat :=
  let sides := [0, 1, 2].map (childSide n c)
  if (o ++ d).all fFinite then
    match [0, 1, 2].mapM fun a => boxAxis (sides.getD a (0, 0)).1 (sides.getD a (0, 0)).2 (o.getD a 0) (d.getD a 0) with
    | none => none
    | some ax =>
      let tn := ax.foldl (fun m p => fMax m p.1) tmin
      let tf := ax.foldl (fun m p => fMin m p.2) tcur
      if fLe tn tf then some tn else none
  else if sides.any (fun p => fLt p.2 p.1) || [0, 1, 2].any (fun a => fFinite (o.getD a 0) && fFinite (d.getD a 0)
      && (boxAxis (sides.getD a (0, 0)).1 (sides.getD a (0, 0)).2 (o.getD a 0) (d.getD a 0)).isNone) then none
  else Config.oddBox (o ++ d) (sides.flatMap fun p => [p.1, p.2])

/-! ### The triangle test (R268 to R270) -/

/-- What a triangle test found: t, u, v and whether det was positive. -/
structure TriHit where
  t : Nat
  u : Nat
  v : Nat
  front : Bool
deriving DecidableEq, Repr

/-- Edge ownership (R269): the vector from p to q, or from q to p when `flip`. -/
def edgeOwned (p q : Nat × Nat) (flip : Bool) : Bool :=
  let a := if flip then q else p
  let b := if flip then p else q
  fLt b.2 a.2 || (fEq b.2 a.2 && fLt b.1 a.1)

/-- |a| as FP32 or FP64. -/
def fAbs (a : Nat) : Nat := a % 2 ^ 31
def dAbs (a : Nat) : Nat := a % 2 ^ 63

/-- The triangle test against o and d. -/
def triTest (o d : List Nat) (v0 v1 v2 : List Nat) : Option TriHit :=
  if !((o ++ d).all fFinite) || d.all fZero then none
  else
  let ab := d.map fAbs
  let kz := if fLe (ab.getD 0 0) (ab.getD 1 0)
    then (if fLe (ab.getD 1 0) (ab.getD 2 0) then 2 else 1) else (if fLe (ab.getD 0 0) (ab.getD 2 0) then 2 else 0)
  let k1 := (kz + 1) % 3
  let k2 := (k1 + 1) % 3
  let sw := fIsNeg (d.getD kz 0)
  let kx := if sw then k2 else k1
  let ky := if sw then k1 else k2
  let dz := d.getD kz 0
  let sx := fDiv (d.getD kx 0) dz
  let sy := fDiv (d.getD ky 0) dz
  let sz := fDiv 0x3F800000 dz
  let rel := fun (p : List Nat) (a : Nat) => fSub (p.getD a 0) (o.getD a 0)
  let shear := fun (p : List Nat) => (fSub (rel p kx) (fMul sx (rel p kz)), fSub (rel p ky) (fMul sy (rel p kz)))
  let a := shear v0
  let b := shear v1
  let c := shear v2
  let cross := fun (p q : Nat × Nat) => fSub (fMul p.1 q.2) (fMul p.2 q.1)
  let u := cross c b
  let v := cross a c
  let w := cross b a
  let az := rel v0 kz
  let bz := rel v1 kz
  let cz := rel v2 kz
  let owned := fun (uz vz wz neg : Bool) =>
    (!uz || edgeOwned b c neg) && (!vz || edgeOwned c a neg) && (!wz || edgeOwned a b neg)
  if fZero u || fZero v || fZero w then
    let dc := fun (p q : Nat × Nat) => dSub (dMul (toF64 p.1) (toF64 q.2)) (dMul (toF64 p.2) (toF64 q.1))
    let u := dc c b
    let v := dc a c
    let w := dc b a
    let det := dAdd (dAdd u v) w
    let vl := Fmt.fp64.unpack det
    let neg := vl.lt false (.fin false 0 0)
    let fix := fun z => if neg then (Fmt.fp64.setSign z (!(Fmt.fp64.neg z))).bits else z
    let u := fix u
    let v := fix v
    let w := fix w
    let isZ := fun z => (Fmt.fp64.unpack z).isZero
    let isN := fun z => (Fmt.fp64.unpack z).lt false (.fin false 0 0)
    if anyNan [vl, Fmt.fp64.unpack u, Fmt.fp64.unpack v, Fmt.fp64.unpack w] || isZ det || isN u || isN v || isN w
        || !owned (isZ u) (isZ v) (isZ w) neg then none
    else
      let tt := dAdd (dAdd (dMul (dMul u (toF64 sz)) (toF64 az)) (dMul (dMul v (toF64 sz)) (toF64 bz))) (dMul (dMul w (toF64 sz)) (toF64 cz))
      some ⟨toF32 (dDiv tt (dAbs det)), toF32 (dDiv v (dAbs det)), toF32 (dDiv w (dAbs det)), !neg⟩
  else
    let det := fAdd (fAdd u v) w
    let neg := fIsNeg det
    let fix := fun z => if neg then (Fmt.fp32.setSign z (!(Fmt.fp32.neg z))).bits else z
    let u := fix u
    let v := fix v
    let w := fix w
    if anyNan ([det, u, v, w].map Fmt.fp32.unpack) || fZero det || fIsNeg u || fIsNeg v || fIsNeg w then none
    else
      let tt := fAdd (fAdd (fMul (fMul u sz) az) (fMul (fMul v sz) bz)) (fMul (fMul w sz) cz)
      some ⟨fDiv tt (fAbs det), fDiv v (fAbs det), fDiv w (fAbs det), !neg⟩

/-! ### One ray -/

/-- T of the held hit, else TMAX (R263). -/
def Ray.tcur (r : Ray) : Nat := (r.held.map (·.t)).getD r.tmax
/-- Origin and direction in the current space. -/
def Ray.orig (r : Ray) : List Nat := (r.inst.map (·.o)).getD r.o
def Ray.dir (r : Ray) : List Nat := (r.inst.map (·.d)).getD r.d
/-- The candidate distance is in range (R266). -/
def Ray.inRange (r : Ray) (t : Nat) : Bool := fLe r.tmin t && fLe t r.tmax && (r.held.isNone || fLt t r.tcur)

/-- A ray read from its record; none when it breaks a rule (RAY_INVALID). -/
def parseRay (bs : List Byte) : Ray × Bool :=
  let f := fun i => num bs i 4
  let r : Ray := { o := [f 0, f 4, f 8], tmin := f 12, d := [f 16, f 20, f 24], tmax := f 28, root := num bs 32 8,
                   rayId := f 40, mask := num bs 44 1, flags := num bs 45 1,
                   stack := [⟨.node, num bs 32 8, 1, f 12⟩] }
  (r, (r.o ++ r.d).all fFinite && !(r.d.all fZero) && fLe 0 r.tmin && fLe r.tmin r.tmax && decide (r.root % 128 = 0)
    && decide (r.flags < 128) && zeros bs 0x2E 18)

/-- Hold an accepted hit; END_ON_FIRST ends the ray (R265, R266). -/
def Ray.accept (r : Ray) (h : Hit) (last : Bool) : Ray :=
  { r with held := some h, ended := if last || bit (BitVec.ofNat 8 r.flags) 0 then some 0 else r.ended }

/-- Opacity of a candidate (R267). -/
def Ray.opaque? (r : Ray) (own : Bool) : Bool :=
  let fl := BitVec.ofNat 8 r.flags
  let il := BitVec.ofNat 8 ((r.inst.map (·.flags)).getD 0)
  if bit fl 1 then true else if bit fl 2 then false else if bit il 0 then true else if bit il 1 then false else own

/-- Suspend for a callback, or end with CALLBACK_DENIED for a Mirror tenant (R277, R280). -/
def Ray.suspend (r : Ray) (mirror custom : Bool) (h : Hit) : Ray :=
  if mirror then { r with ended := some 7 } else { r with susp := some ⟨custom, h, none⟩ }

/-- One triangle of a leaf block; what the ray becomes (R265 to R270). -/
def Ray.triangle (r : Ray) (mirror : Bool) (bs : List Byte) (k : Nat) : Ray :=
  let vtx := fun i => (List.range 3).map fun a => num bs (0x14 + 36 * k + 12 * i + 4 * a) 4
  match triTest r.orig r.dir (vtx 0) (vtx 1) (vtx 2) with
  | none => r
  | some h =>
    let il := BitVec.ofNat 8 ((r.inst.map (·.flags)).getD 0)
    let fl := BitVec.ofNat 8 r.flags
    let tf := BitVec.ofNat 8 (num bs 1 1)
    let front := h.front != bit il 3
    let culled := !(bit tf (3 + k) || bit il 2) && ((bit fl 3 && !front) || (bit fl 4 && front))
    if culled || !r.inRange h.t then r
    else
      let hit : Hit := { kind := if front then 1 else 2, geom := num bs 2 2, t := h.t, u := h.u, v := h.v,
                         prim := (num bs 4 4 + k) % 2 ^ 32, inst := (r.inst.map (·.id)).getD 0xFFFFFFFF,
                         shader := (num bs 8 4 + (r.inst.map (·.shaderOff)).getD 0) % 2 ^ 32 }
      if r.opaque? (bit tf k) then r.accept hit false else r.suspend mirror false hit

/-- A triangle leaf block breaks no rule (R290). -/
def triLeafOk (bs : List Byte) : Bool :=
  decide (1 ≤ num bs 0 1 ∧ num bs 0 1 ≤ 3 ∧ num bs 1 1 < 64) && zeros bs 0x0C 8

/-- Walk the triangles of one block from triangle `k`; stop at an end or a suspension, leaving the place to resume at. -/
def Ray.block (r : Ray) (mirror : Bool) (bs : List Byte) (va left : Nat) : Nat → Nat → Ray × Nat
  | 0, _ => (r, 0)
  | fuel + 1, k =>
    if num bs 0 1 ≤ k then (r, 0)
    else
      let r' := r.triangle mirror bs k
      if r'.ended.isSome then (r', 1)
      else if r'.susp.isSome then ({ r' with resume := some (va, left, k + 1) }, 1)
      else
        let q := r'.block mirror bs va left fuel (k + 1)
        (q.1, q.2 + 1)

/-- Walk the blocks of a triangle leaf (R265.5): the sled, the ray, and the triangle tests made. -/
def Sled.triLeaf (x : Ctx) (d : Sled) (e : Nat) (t : TenantId) (r : Ray) (va k : Nat) : Nat → Sled × Ray × Nat
  | 0 => (d, r, 0)
  | left + 1 =>
    let b := d.treeRead x e t va
    match b.2 with
    | .ok bs =>
      if !triLeafOk bs then (b.1, { r with ended := some 3 }, 0)
      else
        let q := r.block (d.mirror t) bs va left 4 k
        if q.1.ended.isSome || q.1.susp.isSome then (b.1, q.1, q.2)
        else
          let z := b.1.triLeaf x e t q.1 (va + 128) 0 left
          (z.1, z.2.1, z.2.2 + q.2)
    | _ => (b.1, { r with ended := some 2 }, 0)

/-- Insert a hit child among those popped in ascending tnear, then index. -/
def insertChild (e : StEntry) : List StEntry → List StEntry
  | [] => [e]
  | a :: l => if fLt e.tnear a.tnear then e :: a :: l else a :: insertChild e l

/-- What a step counted (R281). -/
structure Counted where
  visits : Nat := 0
  tests : Nat := 0
deriving DecidableEq, Repr

/-- Push entries so that the first is popped first; more than 64 end the ray with DEPTH (R265.4). -/
def Ray.push (r : Ray) (es : List StEntry) : Ray :=
  if 64 < r.stack.length + es.length then { r with ended := some 4 } else { r with stack := es ++ r.stack }

/-- The kind of stack entry a child makes. -/
def Child.stKind (c : Child) : StKind :=
  if c.ty = 1 then .node else if c.ty = 3 then .inst else if c.kind = 0 then .tri else if c.kind = 1 then .custom else .point

/-- Visit a node (R265.3). -/
def Ray.visit (r : Ray) (bs : List Byte) : Ray :=
  match parseNode bs with
  | none => { r with ended := some 3 }
  | some n =>
    let hits := n.children.filterMap fun c => (boxHit n c r.orig r.dir r.tmin r.tcur).map fun tn => (⟨c.stKind, c.va, c.blocks, tn⟩ : StEntry)
    r.push (hits.foldl (fun l e => insertChild e l) [])

/-- A component of INV·(p, w) (R271). -/
def instComp (bs : List Byte) (row : Nat) (p : List Nat) (w : Nat) : Nat :=
  let m := fun c => num bs (16 * row + 4 * c) 4
  let ts := [0, 1, 2].map (fun c => (Fmt.fp32.unpack (m c), Fmt.fp32.unpack (p.getD c 0))) ++ [(Fmt.fp32.unpack (m 3), Fmt.fp32.unpack w)]
  (Fmt.fp32.sum .near (ts.map fun q => q.1.mul q.2) (ts.any fun q => badMul q.1 q.2) 0).bits

/-- An instance node breaks no rule (R290). -/
def instOk (bs : List Byte) : Bool :=
  decide (num bs 0x71 1 < 16 ∧ num bs 0x60 8 % 128 = 0 ∧ num bs 0x71 1 % 4 ≠ 3) && zeros bs 0x72 14

/-- Enter an instance (R271). -/
def Ray.enter (r : Ray) (bs : List Byte) : Ray :=
  if !instOk bs then { r with ended := some 3 }
  else
    let sp : InstSpace := { base := r.stack.length, o := [0, 1, 2].map fun i => instComp bs i r.o 0x3F800000,
                            d := [0, 1, 2].map fun i => instComp bs i r.d 0, id := num bs 0x68 4, shaderOff := num bs 0x6C 4, flags := num bs 0x71 1 }
    { r with inst := some sp }.push [⟨.node, num bs 0x60 8, 1, r.tmin⟩]

/-- Drop the entries that are skipped because their tnear exceeds tcur (R265.2), and leave an instance whose walk has ended. -/
def Ray.settleTop (r : Ray) : Nat → Ray
  | 0 => r
  | fuel + 1 =>
    if (match r.inst with | some i => decide (r.stack.length ≤ i.base) | none => false) then
      Ray.settleTop { r with inst := none } fuel
    else match r.stack with
      | e :: l => if fLt r.tcur e.tnear then Ray.settleTop { r with stack := l } fuel else r
      | [] => r

/-- The VA of the block a ray reads next, if any. -/
def Ray.next (r : Ray) : Option Nat :=
  match r.resume with
  | some p => some p.1
  | none => (r.settleTop 130).stack.head?.map (·.va)

/-- The walk has nothing left: HIT or MISS (R265.7). -/
def Ray.finishIfDone (r : Ray) : Ray :=
  if r.ended.isNone && r.susp.isNone && r.resume.isNone && (r.settleTop 130).stack.isEmpty
  then { r with ended := some (if r.held.isSome then 0 else 1) } else r

/-- The custom-leaf callback (R277). -/
def Ray.customLeaf (r : Ray) (mirror : Bool) (bs : List Byte) : Ray :=
  if num bs 6 1 ≥ 2 ∨ num bs 7 1 ≠ 0 then { r with ended := some 3 }
  else
    let inst := (r.inst.map (·.id)).getD 0xFFFFFFFF
    let shader := (num bs 8 4 + (r.inst.map (·.shaderOff)).getD 0) % 2 ^ 32
    r.suspend mirror true { kind := 3, geom := num bs 4 2, t := r.tcur, prim := num bs 0 4, inst := inst, shader := shader }

/-- One step of a ray on engine `n`: resume a leaf, or pop and process one entry (R265). The node of an instance that the masks reject counts as not read (R271). -/
def Sled.rayStep (x : Ctx) (d : Sled) (n : Nat) (t : TenantId) (r : Ray) : Sled × Ray × Counted :=
  match r.resume with
  | some p =>
    let q := d.triLeaf x n t { r with resume := none } p.1 p.2.2 (p.2.1 + 1)
    (q.1, q.2.1.finishIfDone, { tests := q.2.2 })
  | none =>
    let r := r.settleTop 130
    match r.stack with
    | [] => (d, r.finishIfDone, {})
    | e :: l =>
      let r := { r with stack := l }
      let fl := BitVec.ofNat 8 r.flags
      match e.kind with
      | .point => (d, r.finishIfDone, {})
      | .tri =>
        if bit fl 5 then (d, r.finishIfDone, {})
        else
          let q := d.triLeaf x n t r e.va 0 e.blocks
          (q.1, q.2.1.finishIfDone, { tests := q.2.2 })
      | .custom =>
        if bit fl 6 then (d, r.finishIfDone, {})
        else
          let b := d.treeRead x n t e.va
          match b.2 with
          | .ok bs => (b.1, (r.customLeaf (d.mirror t) bs).finishIfDone, {})
          | _ => (b.1, { r with ended := some 2 }, {})
      | .inst =>
        if r.inst.isSome then (d, { r with ended := some 3 }, {})
        else
          let b := d.treeRead x n t e.va
          match b.2 with
          | .ok bs =>
            if num bs 0x70 1 &&& r.mask = 0 then (d, r.finishIfDone, {})
            else (b.1, (r.enter bs).finishIfDone, { visits := 1 })
          | _ => (b.1, { r with ended := some 2 }, {})
      | .node =>
        let b := d.treeRead x n t e.va
        match b.2 with
        | .ok bs => (b.1, (r.visit bs).finishIfDone, { visits := if (parseNode bs).isSome then 1 else 0 })
        | _ => (b.1, { r with ended := some 2 }, {})

/-- The hit record of an ended ray (Table 8.7). RECORD_FAULT carries no ray ID; CALLBACK_DENIED carries the hit held (R280). -/
def Ray.record (r : Ray) : List Byte :=
  let st := r.ended.getD 0
  let h : Hit := if st = 0 ∨ st = 7 then r.held.getD {} else {}
  let b := fun (n v : Nat) => toBytes (BitVec.ofNat 64 v) n
  b 4 (if st = 6 then 0xFFFFFFFF else r.rayId) ++ b 1 st ++ b 1 h.kind ++ b 2 h.geom ++ b 4 h.t ++ b 4 h.u ++ b 4 h.v ++ b 4 h.prim
    ++ b 4 h.inst ++ b 4 h.shader

/-- The callback record of a suspended ray (Table 8.9). -/
def Ray.callback (r : Ray) (s : Susp) (slot engine : Nat) (gen : BitVec 8) : List Byte :=
  let b := fun (n v : Nat) => toBytes (BitVec.ofNat 64 v) n
  b 4 (slot + 2 ^ 16 * engine + 2 ^ 20 * gen.toNat) ++ b 1 (if s.custom then 2 else 1) ++ b 1 s.cand.kind ++ b 2 s.cand.geom ++ b 4 s.cand.t
    ++ b 4 (if s.custom then 0 else s.cand.u) ++ b 4 (if s.custom then 0 else s.cand.v) ++ b 4 s.cand.prim ++ b 4 s.cand.inst ++ b 4 s.cand.shader
    ++ b 4 r.rayId ++ b 4 r.tmin ++ r.orig.flatMap (b 4) ++ r.dir.flatMap (b 4)

end Sys2Proof.Machine
end

