-- ==== Sys2Proof/Machine/Probe.lean ====
section
/-! DEFINITION. One probe: records, exact scores, the walk with its bound, and the result (09_probes.md). -/
namespace Sys2Proof.Machine

/-- A score by its exact dyadic distance and radius (R301). -/
def scoreOf (d2 : Dy) (r : Dy) : Score :=
  let r2 := r.mul r
  ⟨d2.m.natAbs * 2 ^ (d2.e - r2.e).toNat, r2.m.natAbs * 2 ^ (r2.e - d2.e).toNat⟩
def Score.lt (a b : Score) : Bool := decide (a.n * b.d < b.n * a.d)
def Score.le (a b : Score) : Bool := decide (a.n * b.d ≤ b.n * a.d)
/-- The score as FP32, rounded to nearest even (R298). -/
def Score.bits (a : Score) : Nat := if a.n = 0 then 0 else (Fmt.fp32.round .near false (quotMag a.n 0 a.d 0)).bits

/-- The squared distance from a centre to a box (R301); a side that is none lies at infinity. -/
def dist2 (c : List Dy) (lo hi : List (Option Dy)) : Dy :=
  [0, 1, 2].foldl (fun a i =>
    let ci := c.getD i ⟨0, 0⟩
    let below := (lo.getD i none).filter fun l => ci.lt l
    let above := (hi.getD i none).filter fun h => h.lt ci
    let g := match below, above with
      | some l, _ => l.add ci.neg
      | none, some h => ci.add h.neg
      | none, none => ⟨0, 0⟩
    a.add (g.mul g)) ⟨0, 0⟩

/-- A side of a box that rounding outward left finite; one at infinity bounds nothing (R263, R301). -/
def sideDy (v : Nat) : Option Dy := if fFinite v then some (Fmt.fp32.unpack v).dy else none

/-- A probe read from its record, and whether it meets Table 9.1. -/
def parseProbe (bs : List Byte) : Probe × Bool :=
  let nv := num bs 6 1
  let k := num bs 4 2
  let view := fun v => (num bs (0x10 + 24 * v) 8, [0, 4, 8].map fun i => num bs (0x18 + 24 * v + i) 4, num bs (0x24 + 24 * v) 4)
  let vs := (List.range nv).map view
  ({ id := num bs 0 4, k := k, out := num bs 8 8, views := vs },
    decide (1 ≤ k ∧ k ≤ 256 ∧ 1 ≤ nv ∧ nv ≤ 4 ∧ num bs 8 8 % 64 = 0) && zeros bs 7 1 && zeros bs 0x70 16
      && vs.all fun v => decide (v.1 % 128 = 0) && v.2.1.all fFinite && fFinite v.2.2 && fLt 0 v.2.2)

/-- The centre and radius of the view being walked. -/
def Probe.here (p : Probe) : List Dy × Dy :=
  let v := p.views.getD p.view (0, [], 0)
  (v.2.1.map fun c => (Fmt.fp32.unpack c).dy, (Fmt.fp32.unpack v.2.2).dy)

/-- The order of (score, key) pairs (R302). -/
def Found.before (a b : Found) : Bool := a.score.lt b.score || (!b.score.lt a.score && decide (a.key < b.key))

/-- Insert a pair in its place. -/
def insertFound (f : Found) : List Found → List Found
  | [] => [f]
  | a :: l => if f.before a then f :: a :: l else a :: insertFound f l

/-- A key with its score in this view (R303). -/
def Probe.key (p : Probe) (key : Nat) (q : Score) : Probe :=
  if !q.le ⟨1, 1⟩ then p
  else
    let f : Found := ⟨q, key, p.view⟩
    let p := match p.found.find? fun a => decide (a.key = key) with
      | some a => if q.lt a.score then { p with found := insertFound f (p.found.filter fun a => decide (a.key ≠ key)) } else p
      | none =>
        if p.found.length < p.k then { p with found := insertFound f p.found }
        else match p.found.getLast? with
          | some z => if f.before z then { p with trunc := true, found := insertFound f p.found.dropLast } else { p with trunc := true }
          | none => { p with trunc := true }
    match p.trunc, p.found.getLast? with
    | true, some z => { p with bound := z.score }
    | _, _ => p

/-- A point-leaf block breaks no rule of Table 9.2. -/
def pointLeafOk (bs : List Byte) : Bool :=
  let box := bit (BitVec.ofNat 8 (num bs 1 1)) 0
  let n := num bs 0 1
  let co := fun o => Fmt.fp16.unpack (num bs o 2)
  let fin := fun v => match v with | Val.fin _ _ _ => true | _ => false
  decide (1 ≤ n ∧ n ≤ (if box then 4 else 8) ∧ num bs 1 1 < 2) && zeros bs 2 14 && zeros bs 0x60 32 && (!box || zeros bs 0x50 16)
    && (List.range n).all fun k =>
      if box then (List.range 3).all fun a => fin (co (0x10 + 12 * k + 2 * a)) && fin (co (0x16 + 12 * k + 2 * a))
          && !(co (0x16 + 12 * k + 2 * a)).lt false (co (0x10 + 12 * k + 2 * a))
      else (List.range 3).all fun a => fin (co (0x10 + 6 * k + 2 * a))

/-- Process the keys of a point leaf in slot order (R303). -/
def Probe.leaf (p : Probe) (bs : List Byte) : Probe :=
  let box := bit (BitVec.ofNat 8 (num bs 1 1)) 0
  let h := p.here
  (List.range (num bs 0 1)).foldl (fun p k =>
    let co := fun o => (Fmt.fp16.unpack (num bs o 2)).dy
    let lo := (List.range 3).map fun a => co (if box then 0x10 + 12 * k + 2 * a else 0x10 + 6 * k + 2 * a)
    let hi := if box then (List.range 3).map fun a => co (0x16 + 12 * k + 2 * a) else lo
    p.key (num bs (0x40 + 4 * k) 4) (scoreOf (dist2 h.1 (lo.map some) (hi.map some)) h.2)) p

/-- Insert a hit child among those popped in ascending score, then index. -/
def insertPrb (e : PrbEntry) : List PrbEntry → List PrbEntry
  | [] => [e]
  | a :: l => if e.score.lt a.score then e :: a :: l else a :: insertPrb e l

/-- Visit a node of a probe tree (R295, R301, R303). -/
def Probe.visit (p : Probe) (bs : List Byte) : Probe :=
  match parseNode bs with
  | none => { p with ended := some 3 }
  | some n =>
    let h := p.here
    if n.children.any fun c => decide (c.ty = 3) then { p with ended := some 3 }
    else
      let hits := n.children.filterMap fun c =>
        let sides := [0, 1, 2].map (childSide n c)
        if (c.ty = 2 ∧ c.kind ≠ 2) || sides.any (fun s => fLt s.2 s.1) then none
        else
          let q := scoreOf (dist2 h.1 (sides.map fun s => sideDy s.1) (sides.map fun s => sideDy s.2)) h.2
          if q.le ⟨1, 1⟩ && q.le p.bound then some (⟨decide (c.ty = 2), c.va, q⟩ : PrbEntry) else none
      let es := hits.foldl (fun l e => insertPrb e l) []
      if 64 < p.stack.length + es.length then { p with ended := some 4 } else { p with stack := es ++ p.stack }

/-- Skip the entries whose score exceeds B, and go on to the next view when a stack is empty (R303). -/
def Probe.settleTop (p : Probe) : Nat → Probe
  | 0 => p
  | fuel + 1 =>
    match p.stack with
    | e :: l => if p.bound.lt e.score then Probe.settleTop { p with stack := l } fuel else p
    | [] =>
      let v := if p.started then p.view + 1 else p.view
      if p.views.length ≤ v then { p with ended := some (if p.found.isEmpty then 1 else 0) }
      else Probe.settleTop { p with view := v, started := true, stack := [⟨false, (p.views.getD v (0, [], 0)).1, ⟨0, 1⟩⟩] } fuel

/-- End a probe on a fault: the view is kept (Table 9.3). -/
def Probe.faulted (p : Probe) (st : Nat) : Probe := { p with ended := some st, fview := p.view }

/-- One step of a probe on engine `n`: pop an entry and test the node or process the point leaf (R303). -/
def Sled.probeStep (x : Ctx) (d : Sled) (n : Nat) (t : TenantId) (p : Probe) : Sled × Probe × Counted :=
  let p := p.settleTop 70
  match p.ended, p.stack with
  | none, e :: l =>
    let p := { p with stack := l }
    let b := d.treeRead x n t e.va
    match b.2 with
    | .ok bs =>
      if e.leaf then
        if pointLeafOk bs then (b.1, ({ p with visits := p.visits + 1 }.leaf bs).settleTop 70, { visits := 1 })
        else (b.1, p.faulted 3, {})
      else
        let q := { p with visits := p.visits + 1 }.visit bs
        if q.ended = some 4 then (b.1, { p with visits := p.visits + 1 }.faulted 4, { visits := 1 })
        else if q.ended.isSome then (b.1, p.faulted 3, {}) else (b.1, q.settleTop 70, { visits := 1 })
    | _ => (b.1, p.faulted 2, {})
  | _, _ => (d, p, {})

/-- The candidate list (R298). -/
def Probe.list (p : Probe) : List Byte :=
  p.found.flatMap fun f => toBytes (BitVec.ofNat 32 f.key) 4 ++ toBytes (BitVec.ofNat 32 f.score.bits) 4

/-- The result record (Table 9.3). -/
def Probe.record (p : Probe) : List Byte :=
  let st := p.ended.getD 0
  let ok := decide (st = 0 ∨ st = 1)
  let b := fun (n v : Nat) => toBytes (BitVec.ofNat 64 v) n
  let views := (List.range 4).foldl (fun a v => a + if p.found.any (fun f => decide (f.view = v)) then 2 ^ (v + 1) else 0) 0
  b 4 (if st = 6 then 0xFFFFFFFF else p.id) ++ b 1 st ++ b 1 (if ok then views + (if p.trunc then 1 else 0) else 0)
    ++ b 2 (if ok then p.found.length else 0) ++ b 8 p.out
    ++ b 4 (if ok then ((p.found.getLast?.map fun f => f.score.bits).getD 0) else 0) ++ b 4 (min p.visits (2 ^ 32 - 1))
    ++ b 1 p.fview ++ List.replicate 7 0

end Sys2Proof.Machine
end

