-- ==== Sys2Proof/Machine/Engine.lean ====
section
/-! DEFINITION. The Traversal Engines as units: holders, pools, submissions, caravans, rings, callbacks and their rows (08_traversal.md, 09_probes.md). -/
namespace Sys2Proof.Machine

/-- Engine `e`. -/
def Sled.eng (d : Sled) (e : Nat) : Engine := mget d.engines e
/-- Change an engine. -/
def Sled.onEng (d : Sled) (e : Nat) (f : Engine → Engine) : Sled := { d with engines := mmod d.engines e f }
/-- A pool slot. -/
def Sled.slot (d : Sled) (e k : Nat) : PoolSlot := mget (d.eng e).slots k
/-- Replace a pool slot. -/
def Sled.setSlot (d : Sled) (e k : Nat) (v : PoolSlot) : Sled := d.onEng e fun g => { g with slots := mset g.slots k v }
/-- The slots in use: (number, slot). -/
def Engine.used (g : Engine) : List (Nat × PoolSlot) := g.slots.filter fun p => decide (p.2.job ≠ .none)
/-- The tenant the engine works for. -/
def Engine.tenant (g : Engine) : TenantId := g.holder.getD 0
/-- The engines a tenant holds, lowest first (R257). -/
def Sled.held (d : Sled) (t : TenantId) : List Nat :=
  (List.range 16).filter fun e => decide ((d.eng e).holder = some t) && !(d.eng e).draining

/-- The slot's job is a ray of a hit queue. -/
def PoolSlot.isRay (s : PoolSlot) : Bool := match s.job with | .ray _ => true | _ => false
def PoolSlot.isProbe (s : PoolSlot) : Bool := match s.job with | .probe _ => true | _ => false
/-- Rays of a hit queue, or probes of a result queue, in the pool (INFLIGHT). -/
def Sled.inflight (d : Sled) (e q : Nat) (probe : Bool) : Nat :=
  (d.eng e).used.countP fun p => decide (p.2.queue = q) && (if probe then p.2.isProbe else p.2.isRay)

/-- A job of a queue waits for ring room (R274): an ended one for its own ring, a suspended ray for the callback ring. -/
def Sled.ringWaits (d : Sled) (e q : Nat) (probe cb : Bool) : Bool :=
  (d.eng e).used.any fun p => decide (p.2.queue = q) && p.2.waits && match p.2.job with
    | .ray r => !probe && (r.susp.isSome == cb)
    | .probe _ => probe
    | .none => false

/-- The registers of a ring, so that hit queues and result queues share one set of operations (R306). -/
structure RingRegs where
  base : Reg
  hdr : Reg
  ctl : Reg
  status : Reg
  handle : Reg
  thresh : Reg
  kind : Nat
  probe : Bool
deriving DecidableEq, Repr

def hitRing : RingRegs := ⟨.teHqBase, .teHqHdr, .teHqCtl, .teHqStatus, .teHqHandle, .teHqThresh, 2, false⟩
def resRing : RingRegs := ⟨.prbRqBase, .prbRqHdr, .prbRqCtl, .prbRqStatus, .prbRqHandle, .prbRqThresh, 4, true⟩

/-- The ring's counts. -/
def Sled.ring (d : Sled) (rr : RingRegs) (e q : Nat) : Ring := mget (if rr.probe then (d.eng e).rqs else (d.eng e).hqs) q
/-- Change the ring's counts. -/
def Sled.onRing (d : Sled) (rr : RingRegs) (e q : Nat) (f : Ring → Ring) : Sled :=
  d.onEng e fun g => if rr.probe then { g with rqs := mmod g.rqs q f } else { g with hqs := mmod g.hqs q f }

/-- The tenant of a ring (TENANT). -/
def Sled.ringTenant (d : Sled) (rr : RingRegs) (e q : Nat) : TenantId := tenantOf (fld (d.r32 rr.ctl e q) 29 24)
/-- ORDERED, which reads 1 for a Mirror tenant (R275). -/
def Sled.ringOrdered (d : Sled) (rr : RingRegs) (e q : Nat) : Bool := bit (d.r32 rr.ctl e q) 1 || d.mirror (d.ringTenant rr e q)
/-- The ring takes submissions of a tenant (R273). -/
def Sled.ringOk (d : Sled) (rr : RingRegs) (e q : Nat) (t : TenantId) : Bool :=
  decide (q < 64) && bit (d.r32 rr.ctl e q) 0 && decide (d.ringTenant rr e q = t)

/-! ### Submission (R170, R171, R273, R518) -/

/-- The engine a submission names: 0xFF picks the held engine with the most free slots, the lowest-numbered of equals (log 28). -/
def Sled.pickEngine (d : Sled) (t : TenantId) (field : Nat) : Option Nat :=
  let hs := d.held t
  if field = 0xFF then
    hs.foldl (fun b e => match b with
      | none => some e
      | some o => if (d.eng e).used.length < (d.eng o).used.length then some e else some o) none
  else hs[field]?

/-- The descriptor in force for work accepted now (R285). -/
def Sled.descOf (d : Sled) (rr : RingRegs) (e q : Nat) : RingDesc :=
  { base := d.r64 rr.base e q, hdr := d.r64 rr.hdr e q, handle := d.r32 rr.handle e q, thresh := d.r32 rr.thresh e q, caravan := d.r32 .teCaravan e
    cbBase := if rr.probe then 0 else d.r64 .teHqCbBase e q, cbHdr := if rr.probe then 0 else d.r64 .teHqCbHdr e q
    cbHandle := if rr.probe then 0 else d.r32 .teHqCbHandle e q }

/-- Put a new job in the lowest free slot, with the next sequence number of its ring. -/
def Sled.addJob (x : Ctx) (d : Sled) (rr : RingRegs) (e q item : Nat) (j : Job) : Sled :=
  let k := ((List.range 65536).find? fun k => decide ((d.slot e k).job = .none)).getD 0
  let r := d.ring rr e q
  (d.setSlot e k { d.slot e k with job := j, queue := q, seq := r.seq, item := item, since := d.clock x, ord := d.ringOrdered rr e q, desc := d.descOf rr e q, waits := false }).onRing rr e q fun r => { r with seq := r.seq + 1 }

/-- The record of a failed read of a ray or probe record, or of a candidate list that could not be written (R262, R300): it names the entry whose batch it is. -/
def Sled.recordFault (x : Ctx) (d : Sled) (t : TenantId) (e item : Nat) (f : TFault) : Sled :=
  match (d.item item).filter fun i => decide (i.kind = 2 ∨ i.kind = 3) with
  | some i => d.stage x t (f.record 3 e (BitVec.ofNat 8 i.queue) i.entry)
  | none => d.stage x t (f.record 3 e 0xFF 0xFFFFFFFF)

/-- The 64-bit engine counters wrap (Table 8.12). -/
def Sled.wrap64 (d : Sled) (r : Reg) (e n : Nat) : Sled := d.w64 r (d.r64 r e + BitVec.ofNat 64 n) e

/-- A ray has ended with a status: it is counted (R262, R281). -/
def Sled.rayEnded (d : Sled) (e : Nat) (st : Option Nat) : Sled :=
  match st with
  | none => d
  | some n =>
    let d := (d.wrap64 .teRaysOut e 1).bump32 .teStat e n
    if n = 2 then d.bump32 .tntTeNode (d.eng e).tenant else d

/-- A probe has ended with a status: it is counted (R300). -/
def Sled.probeEnded (d : Sled) (e : Nat) (st : Option Nat) : Sled :=
  match st with
  | none => d
  | some n =>
    let d := (d.wrap64 .prbProbesOut e 1).bump32 .prbStat e n
    if n = 2 then d.bump32 .tntTeNode (d.eng e).tenant else d

/-- Take a ray into the pool; one that has ended at once is counted. -/
def Sled.addRay (x : Ctx) (d : Sled) (e q item : Nat) (r : Ray) : Sled := (d.addJob x hitRing e q item (.ray r)).rayEnded e r.ended
/-- Take a probe into the pool. -/
def Sled.addProbe (x : Ctx) (d : Sled) (e q item : Nat) (p : Probe) : Sled := (d.addJob x resRing e q item (.probe p)).probeEnded e p.ended

/-- Read the next ray record and take it into the pool. -/
def Sled.takeRay (x : Ctx) (t : TenantId) (e q item va : Nat) (d : Sled) (i : Nat) : Sled :=
  let b := d.eRead x t (va + 64 * i) 64
  match b.2 with
  | .ok bs => b.1.addRay x e q item (let p := parseRay bs; if p.2 then p.1 else { p.1 with ended := some 5 })
  | .fault f => (b.1.recordFault x t e item f).addRay x e q item { ended := some 6 }
  | .failed => b.1.addRay x e q item { ended := some 6 }

/-- Read the next probe record and take it into the pool. -/
def Sled.takeProbe (x : Ctx) (t : TenantId) (e q item va : Nat) (d : Sled) (i : Nat) : Sled :=
  let b := d.eRead x t (va + 128 * i) 128
  match b.2 with
  | .ok bs => b.1.addProbe x e q item (let p := parseProbe bs; if p.2 then p.1 else { p.1 with ended := some 5 })
  | .fault f => (b.1.recordFault x t e item f).addProbe x e q item { ended := some 6 }
  | .failed => b.1.addProbe x e q item { ended := some 6 }

/-- Submission status codes (Table 5.13). -/
def stAccepted : Nat := 0
def stRefused : Nat := 1
def stNotAllotted : Nat := 2
def stBadArgs : Nat := 3
def stBadHandle : Nat := 4

/-- Submit rays or probes: the sled and the status (R518). `argsOk` covers the checks on the reserved bits, `most` bounds the count. -/
def Sled.teSubmit (x : Ctx) (d : Sled) (rr : RingRegs) (t : TenantId) (item field q va count most : Nat) (argsOk : Bool) : Sled × Nat :=
  if count = 0 ∨ most < count ∨ va % 64 ≠ 0 ∨ !argsOk then (d, stBadArgs)
  else match d.pickEngine t field with
    | none => (d, stNotAllotted)
    | some e =>
      if !d.ringOk rr e q t then (d, stBadArgs)
      else if 65536 < (d.eng e).used.length + count then (d, stRefused)
      else
        let d := (List.range count).foldl (fun d i => if rr.probe then d.takeProbe x t e q item va i else d.takeRay x t e q item va i) d
        let d := d.wrap64 .teRaysIn e count
        let d := if rr.probe then d.wrap64 .prbProbesIn e count else d
        (d.tally t.val (if rr.probe then 3 else 2) count, stAccepted)

/-- The status teSubmit would give, taking nothing. -/
def Sled.teCheck (d : Sled) (rr : RingRegs) (t : TenantId) (field q va count most : Nat) (argsOk : Bool) : Nat :=
  if count = 0 ∨ most < count ∨ va % 64 ≠ 0 ∨ !argsOk then stBadArgs
  else match d.pickEngine t field with
    | none => stNotAllotted
    | some e => if !d.ringOk rr e q t then stBadArgs else if 65536 < (d.eng e).used.length + count then stRefused else stAccepted

/-! ### Caravans (R272) -/

/-- The key a waiting ray is filed under: octant, origin cell, block, and the TE_CARAVAN it was accepted under (R285). A cell exponent of −128 drops the cell. -/
def caravanKey (v : Word32) (r : Ray) : Word32 × List Nat × List Int × Nat :=
  let raw := fld v 31 24
  let ce : Int := if 128 ≤ raw then (raw : Int) - 256 else raw
  let cell := fun (o : Nat) =>
    let v := (Fmt.fp32.unpack o).dy
    if 0 ≤ v.e - ce then v.m * 2 ^ (v.e - ce).toNat else v.m / 2 ^ (ce - v.e).toNat
  (v, r.d.map (· / 2 ^ 31 % 2), if raw = 128 then [] else r.o.map cell, r.next.getD 0)

/-- The rays of an engine that may walk: not suspended, not ended, and not of a carried item (R282). -/
def Sled.walking (d : Sled) (e : Nat) : List (Nat × PoolSlot × Ray) :=
  (d.eng e).used.filterMap fun p => match p.2.job with
    | .ray r => if r.susp.isNone && r.ended.isNone && d.mayRun p.2.item then some (p.1, p.2, r) else none
    | _ => none

/-- The caravan to dispatch: the largest group of one key that has MIN_SIZE rays or whose oldest ray has waited MAX_WAIT engine clocks. -/
def Sled.caravan (x : Ctx) (d : Sled) (e : Nat) : List (Nat × PoolSlot × Ray) :=
  let ws := d.walking e
  let group := fun (w : Nat × PoolSlot × Ray) => ws.filter fun o => decide (caravanKey o.2.1.desc.caravan o.2.2 = caravanKey w.2.1.desc.caravan w.2.2)
  let ready := ws.filter fun w =>
    let g := group w
    let minSize := max 1 (min 64 (fld w.2.1.desc.caravan 22 16))
    let maxWait := max 1 (fld w.2.1.desc.caravan 15 0)
    decide (minSize ≤ g.length) || g.any fun o => decide (maxWait ≤ d.clock x - o.2.1.since)
  ((ready.foldl (fun b w => if b.length < (group w).length then group w else b) []).take 64)

/-- A ray takes one step in its slot; a suspension advances GEN, 255 going to 1 (R278). -/
def Sled.stepSlot (x : Ctx) (e : Nat) (d : Sled) (w : Nat × PoolSlot × Ray) : Sled :=
  let t := (d.eng e).tenant
  let q := d.rayStep x e t w.2.2
  let sl := q.1.slot e w.1
  let gen := if q.2.1.susp.isSome then (if sl.gen = 255 then 1 else sl.gen + 1) else sl.gen
  let d := (q.1.setSlot e w.1 { sl with job := .ray q.2.1, gen := gen, since := q.1.clock x }).rayEnded e q.2.1.ended
  let d := (d.wrap64 .teVisits e q.2.2.visits).wrap64 .teTritests e q.2.2.tests
  (d.tally t.val 0 q.2.2.visits).tally t.val 1 q.2.2.tests

/-- The node cache of an engine may have lost any of its blocks: a free value. -/
def Sled.evictNodes (x : Ctx) (d : Sled) (e : Nat) : Sled :=
  let n := Config.freeNat x.sl d.freeCtr
  d.stepFree.onEng e fun g => { g with nodes := g.nodes.filter fun p => n.testBit p.1 }

/-- CARAVAN_DISPATCH: a caravan walks one step. -/
def Sled.caravanDispatch (x : Ctx) (d : Sled) (e : Nat) : Sled :=
  let c := d.caravan x e
  if c.isEmpty then d else c.foldl (fun d w => d.stepSlot x e w) ((d.evictNodes x e).wrap64 .teCaravans e 1)

def execCaravanDispatch (sl : SledId) (e : EngineId) (s : State) : Host.Outcome State Fault Refusal :=
  .next (s.onSled sl fun x d => d.caravanDispatch x e)

/-! ### Ring writes (R274, R275, R287) -/

/-- A failed ring write (R287). -/
def Sled.ringFault (x : Ctx) (d : Sled) (rr : RingRegs) (e q : Nat) (t : TenantId) (va : Nat) (f : TFault) : Sled :=
  (d.setRegBit rr.status 0 true e q).stage x t { f.record 3 e 0xFF 0xFFFFFFFF with addr := BitVec.ofNat 64 va }

/-- Read HEAD of a header line. -/
def Sled.ringHead (x : Ctx) (d : Sled) (t : TenantId) (hdr : Nat) : Sled × Option Word32 × Option TFault :=
  let b := d.eRead x t hdr 4
  match b.2 with
  | .ok bs => (b.1, some (ofBytes 32 bs), none)
  | .fault f => (b.1, none, some f)
  | .failed => (b.1, none, some { code := 2, va := hdr })

/-- TAIL moves over the slots written without gaps (R275). -/
def Ring.closeGaps (r : Ring) : Nat → Ring
  | 0 => r
  | n + 1 => if r.ahead.contains r.tail then Ring.closeGaps { r with tail := r.tail + 1, ahead := r.ahead.filter (· ≠ r.tail) } n else r

/-- Events after the record of a slot's job: THRESH records since the last one, or INFLIGHT at zero (R276). -/
def Sled.ringEvents (x : Ctx) (d : Sled) (rr : RingRegs) (e : Nat) (t : TenantId) (sl : PoolSlot) : Sled :=
  let q := sl.queue
  let th := max 1 (fld sl.desc.thresh 16 0)
  let post := fun (d : Sled) => if sl.desc.handle = 0 then d else d.event x t rr.kind sl.desc.handle
  if th ≤ (d.ring rr e q).since ∨ d.inflight e q rr.probe = 0 then post (d.onRing rr e q fun r => { r with since := 0 }) else d

/-- An item of rays or probes ends with its last record (R284, R309). -/
def Sled.endBatch (d : Sled) (id : Nat) : Sled :=
  let left := (List.range 16).any fun e => (d.eng e).used.any fun p => decide (p.2.item = id)
  match d.item id with
  | some i => if (i.kind = 2 ∨ i.kind = 3) ∧ i.st ≠ .finished ∧ !left then d.finish id 0 0 else d
  | none => d

/-- The other jobs of a slot's queue that were not accepted in order. -/
def Sled.mates (d : Sled) (rr : RingRegs) (e q : Nat) : List (Nat × PoolSlot) :=
  (d.eng e).used.filter fun p => decide (p.2.queue = q) && !p.2.ord && (if rr.probe then p.2.isProbe else p.2.isRay)

/-- The ring position of a slot's record (R275): its own sequence number when accepted in order, else the lowest that a job accepted out of order still holds, which without
jobs in order is TAIL. -/
def Sled.recordPos (d : Sled) (rr : RingRegs) (e k : Nat) : Word32 :=
  let sl := d.slot e k
  let tail := (d.ring rr e sl.queue).tail
  if sl.ord then sl.seq
  else (d.mates rr e sl.queue).foldl (fun m p => if (p.2.seq - tail).toNat < (m - tail).toNat then p.2.seq else m) sl.seq

/-- The job that held a position takes the sequence number of the one whose record went there. -/
def Sled.swapSeq (d : Sled) (rr : RingRegs) (e k : Nat) (pos : Word32) : Sled :=
  let sl := d.slot e k
  match (d.mates rr e sl.queue).find? fun p => decide (p.2.seq = pos ∧ p.1 ≠ k) with
  | some p => if sl.ord then d else d.setSlot e p.1 { p.2 with seq := sl.seq }
  | none => d

/-- Write a record for the job in a slot and free the slot; the sled, and whether it was written. Nothing is dropped or overwritten (R274, R275). -/
def Sled.writeRecord (x : Ctx) (d : Sled) (rr : RingRegs) (e k : Nat) (bytes : List Byte) : Sled × Bool :=
  let sl := d.slot e k
  let q := sl.queue
  let t := (d.eng e).tenant
  if bit (d.r32 rr.status e q) 0 then (d, false)
  else
    let hdr := sl.desc.hdr.toNat
    let h := d.ringHead x t hdr
    match h.2.1, h.2.2 with
    | none, f => (h.1.ringFault x rr e q t hdr (f.getD { code := 2, va := hdr }), false)
    | some head, _ =>
      let d := h.1
      let size := 2 ^ fld (d.r32 rr.ctl e q) 12 8
      let r := d.ring rr e q
      let pos := d.recordPos rr e k
      if size ≤ (pos - head).toNat then (d.setSlot e k { sl with waits := true }, false)
      else
        let va := sl.desc.base.toNat + pos.toNat % size * 32
        let w := d.eWrite x t va bytes
        match w.2 with
        | some f => (w.1.ringFault x rr e q t va f, false)
        | none =>
          let r' := { r with ahead := r.ahead ++ [pos] }.closeGaps (r.ahead.length + 1)
          let w2 := if r'.tail = r.tail then (w.1, none) else w.1.eWrite x t (hdr + 8) (toBytes r'.tail 4)
          match w2.2 with
          | some f => (w2.1.ringFault x rr e q t (hdr + 8) f, false)
          | none =>
            let d := (w2.1.onRing rr e q fun _ => { r' with since := r'.since + 1 }).swapSeq rr e k pos
            let d := d.setSlot e k { d.slot e k with job := .none, waits := false }
            ((d.ringEvents x rr e t sl).endBatch sl.item, true)

/-- HIT_RECORD_WRITE: an ended ray's record is written when its ring has room. -/
def Sled.hitRecordWrite (x : Ctx) (d : Sled) (e k : Nat) : Sled :=
  match (d.slot e k).job with
  | .ray r =>
    if r.ended.isNone || !d.mayRun (d.slot e k).item then d
    else
      (d.writeRecord x hitRing e k r.record).1
  | _ => d

def execHitRecordWrite (sl : SledId) (e : EngineId) (slot : Fin 65536) (s : State) : Host.Outcome State Fault Refusal :=
  .next (s.onSled sl fun x d => d.hitRecordWrite x e slot)

/-! ### Callbacks (R277 to R280, R292) -/

/-- CALLBACK_POST: a suspended ray's record is written when the callback ring has room. -/
def Sled.callbackPost (x : Ctx) (d : Sled) (e k : Nat) : Sled :=
  let sl := d.slot e k
  match sl.job with
  | .ray r =>
    match r.susp with
    | some sp =>
      let q := sl.queue
      if sp.recVa.isSome || bit (d.r32 .teHqStatus e q) 0 || !d.mayRun sl.item then d
      else
        let t := (d.eng e).tenant
        let hdr := sl.desc.cbHdr.toNat
        let h := d.ringHead x t hdr
        match h.2.1, h.2.2 with
        | none, f => h.1.ringFault x hitRing e q t hdr (f.getD { code := 2, va := hdr })
        | some head, _ =>
          let d := h.1
          let size := 2 ^ fld (d.r32 .teHqCtl e q) 20 16
          let tail := (d.ring hitRing e q).cbTail
          if size ≤ (tail - head).toNat then d.setSlot e k { sl with waits := true }
          else
            let va := sl.desc.cbBase.toNat + tail.toNat % size * 64
            let w := d.eWrite x t va (r.callback sp k e sl.gen)
            match w.2 with
            | some f => w.1.ringFault x hitRing e q t va f
            | none =>
              let w2 := w.1.eWrite x t (hdr + 8) (toBytes (tail + 1) 4)
              match w2.2 with
              | some f => w2.1.ringFault x hitRing e q t (hdr + 8) f
              | none =>
                let d := (w2.1.onRing hitRing e q fun g => { g with cbTail := tail + 1 })
                let d := (d.setSlot e k { sl with waits := false, job := .ray { r with susp := some { sp with recVa := some va } } }).wrap64 .teCallbacks e 1
                if sl.desc.cbHandle = 0 then d else d.event x t 3 sl.desc.cbHandle
    | none => d
  | _ => d

def execCallbackPost (sl : SledId) (e : EngineId) (slot : Fin 65536) (s : State) : Host.Outcome State Fault Refusal :=
  .next (s.onSled sl fun x d => d.callbackPost x e slot)

/-- TERESUME: the sled and the status. A draining engine's rays still take verdicts for the tenant that released it (DEDUCED, log 29). -/
def Sled.teResume (x : Ctx) (d : Sled) (t : TenantId) (handle verdict : Word64) : Sled × Nat :=
  let e := fld handle 19 16
  let k := fld handle 15 0
  let sl := d.slot e k
  match sl.job with
  | .ray r =>
    match r.susp with
    | some sp =>
      if fld handle 63 28 ≠ 0 ∨ fld handle 27 20 = 0 ∨ fld handle 27 20 ≠ sl.gen.toNat ∨ (d.eng e).holder ≠ some t ∨ sp.recVa.isNone then (d, stBadHandle)
      else
        let vd := fld verdict 1 0
        let rep := bit verdict 2
        if fld verdict 63 3 ≠ 0 ∨ vd = 3 ∨ (rep ∧ !sp.custom) ∨ (sp.custom ∧ vd ≠ 0 ∧ !rep) then (d, stBadArgs)
        else
          let r0 := { r with susp := none }
          let put := fun (d : Sled) (r : Ray) => ((d.setSlot e k { sl with job := .ray r.finishIfDone, since := d.clock x }).rayEnded e r.finishIfDone.ended, stAccepted)
          if vd = 0 then put d r0
          else if !sp.custom then put d (r0.accept sp.cand (decide (vd = 2)))
          else
            let b := d.eRead x t (sp.recVa.getD 0 + 8) 12
            match b.2 with
            | .ok bs =>
              let h := { sp.cand with t := num bs 0 4, u := num bs 4 4, v := num bs 8 4 }
              if r0.inRange h.t then put b.1 (r0.accept h (decide (vd = 2))) else put b.1 r0
            | _ => put b.1 r0
    | none => (d, stBadHandle)
  | _ => (d, stBadHandle)

/-! ### Probes -/

/-- PROBE_NODE_VISIT: a probe in the pool takes one step. One that ends with keys found has ended once its list is written (R298). -/
def Sled.probeVisit (x : Ctx) (d : Sled) (e k : Nat) : Sled :=
  let sl := d.slot e k
  match sl.job with
  | .probe p =>
    if p.ended.isSome || !d.mayRun sl.item then d
    else
      let t := (d.eng e).tenant
      let q := (d.evictNodes x e).probeStep x e t p
      let d := (q.1.setSlot e k { sl with job := .probe q.2.1 }).probeEnded e (q.2.1.ended.filter (· ≠ 0))
      ((d.wrap64 .teVisits e q.2.2.visits).wrap64 .prbVisits e q.2.2.visits).tally t.val 0 q.2.2.visits
  | _ => d

def execProbeNodeVisit (sl : SledId) (e : EngineId) (slot : Fin 65536) (s : State) : Host.Outcome State Fault Refusal :=
  .next (s.onSled sl fun x d => d.probeVisit x e slot)

/-- Write the candidate list of a probe that found keys, after checking all K x 8 bytes from OUT (R298). -/
def Sled.writeList (x : Ctx) (d : Sled) (t : TenantId) (e item : Nat) (p : Probe) : Sled × Probe :=
  let c := d.translateList x t false .store (pieces p.out (8 * p.k))
  let out := fun (d : Sled) => (d, { p with ended := some 7, listed := true })
  match c.2.2 with
  | some f => out (c.1.recordFault x t e item { f with va := p.out })
  | none =>
    if c.2.1.any fun q => match c.1.target x q.pa with | .mem _ => false | _ => true then out c.1
    else
      let w := c.1.eWrite x t p.out p.list
      match w.2 with
      | some f => out (w.1.recordFault x t e item { f with va := p.out })
      | none => (w.1, { p with listed := true })

/-- The end of a probe that found keys: its list, its counts, and the record of a truncation (R300, R304). -/
def Sled.listProbe (x : Ctx) (d : Sled) (e k : Nat) (p : Probe) : Sled × Probe :=
  if p.ended ≠ some 0 ∨ p.listed then (d, p)
  else
    let t := (d.eng e).tenant
    let l := d.writeList x t e (d.slot e k).item p
    let d := (l.1.setSlot e k { l.1.slot e k with job := .probe l.2 }).probeEnded e l.2.ended
    if l.2.ended ≠ some 0 then (d, l.2)
    else
      let full : FaultRec := { code := 0x0C, sev := 1, source := 3, unit := 0xFFFF, detail0 := BitVec.ofNat 64 (e + 256 * (d.slot e k).queue), detail1 := BitVec.ofNat 64 p.id }
      let d := d.wrap64 .prbCands e p.found.length
      (if p.trunc then (d.wrap64 .prbTrunc e 1).stage x t full else d, l.2)

/-- PROBE_RESULT_WRITE: an ended probe writes its candidate list, and its result record when the ring has room (R304, R306). -/
def Sled.probeResultWrite (x : Ctx) (d : Sled) (e k : Nat) : Sled :=
  match (d.slot e k).job with
  | .probe p =>
    if p.ended.isNone || !d.mayRun (d.slot e k).item then d
    else
      let l := d.listProbe x e k p
      (l.1.writeRecord x resRing e k l.2.record).1
  | _ => d

def execProbeResultWrite (sl : SledId) (e : EngineId) (slot : Fin 65536) (s : State) : Host.Outcome State Fault Refusal :=
  .next (s.onSled sl fun x d => d.probeResultWrite x e slot)

/-! ### Holders and controls -/

/-- ENGINE_DRAIN_DONE: a released engine whose pool is empty becomes free (R258). -/
def Sled.engineDrainDone (d : Sled) (e : Nat) : Sled :=
  if (d.eng e).draining && (d.eng e).used.isEmpty then d.onEng e fun g => { g with holder := none, draining := false } else d

def execEngineDrainDone (sl : SledId) (e : EngineId) (s : State) : Host.Outcome State Fault Refusal :=
  .next (s.onSled sl fun _ d => d.engineDrainDone e)

/-- A tenant's TES takes effect (R257): it takes the lowest free enabled engines, with empty node caches (R258), or releases its highest. -/
def Sled.fitEngines (d : Sled) (t : TenantId) (tes : Nat) : Sled :=
  let hs := d.held t
  if hs.length < tes then
    let free := (List.range 16).filter fun e => bit (d.r32 .teCtl e) 0 && decide ((d.eng e).holder = none)
    (free.take (tes - hs.length)).foldl (fun d e => d.onEng e fun g => { g with holder := some t, draining := false, nodes := [] }) d
  else
    (hs.drop tes).foldl (fun d e => d.onEng e fun g =>
      if g.used.isEmpty then { g with holder := none, draining := false } else { g with draining := true }) d

/-- Discard every ray and probe of a tenant (R283, R312). A slot keeps its GEN, so that older handles stay dead, and the rings go on from TAIL (DESIGN CHOICE, log 127). -/
def Sled.dropJobs (d : Sled) (t : TenantId) : Sled :=
  let fresh := fun (m : Map Ring) => m.map fun q => (q.1, { q.2 with seq := q.2.tail, ahead := [] })
  { d with engines := d.engines.map fun p =>
      if p.2.holder = some t then
        (p.1, { p.2 with slots := p.2.slots.map fun q => (q.1, { q.2 with job := .none }), hqs := fresh p.2.hqs, rqs := fresh p.2.rqs })
      else p }

/-- Discard the rays and probes of one item of a Mirror tenant, whose rings are in order (R416): those behind them in a ring move up, so that no sequence number is left out. -/
def Sled.dropItemJobs (d : Sled) (id : Nat) : Sled :=
  { d with engines := d.engines.map fun p =>
      let gone := p.2.used.filter fun q => decide (q.2.item = id)
      if gone.isEmpty then p
      else
        let mine := fun (probe : Bool) (q : Nat) => gone.filter fun k => decide (k.2.queue = q) && (k.2.isProbe == probe)
        let before := fun (probe : Bool) (q : Nat) (tail seq : Word32) => BitVec.ofNat 32 ((mine probe q).countP fun k => decide ((k.2.seq - tail).toNat < (seq - tail).toNat))
        let ring := fun (probe : Bool) (q : Nat) => if probe then (mget p.2.rqs q : Ring) else mget p.2.hqs q
        let cut := fun (probe : Bool) (m : Map Ring) => m.map fun r => (r.1, { r.2 with seq := r.2.seq - BitVec.ofNat 32 (mine probe r.1).length })
        (p.1, { p.2 with
          slots := p.2.slots.map fun k => (k.1, if k.2.item = id then { k.2 with job := .none } else { k.2 with seq := k.2.seq - before k.2.isProbe k.2.queue (ring k.2.isProbe k.2.queue).tail k.2.seq })
          hqs := cut false p.2.hqs, rqs := cut true p.2.rqs }) }

/-- Take TAIL of a ring from its header line when the queue is enabled, and go on from there (DESIGN CHOICE, log 30). -/
def Sled.openRing (x : Ctx) (d : Sled) (rr : RingRegs) (e q : Nat) (t : TenantId) : Sled :=
  let b := d.eRead x t ((d.r64 rr.hdr e q).toNat + 8) 4
  let c := if rr.probe then (b.1, .failed) else b.1.eRead x t ((d.r64 .teHqCbHdr e q).toNat + 8) 4
  let d := match b.2 with
    | .ok bs => c.1.onRing rr e q fun r => { r with seq := ofBytes 32 bs, tail := ofBytes 32 bs, ahead := [], since := 0 }
    | _ => c.1
  match c.2 with
  | .ok bs => d.onRing rr e q fun r => { r with cbTail := ofBytes 32 bs }
  | _ => d

/-- A write to a ring's control register (R285, R310); 1 in RESUME clears STALL_FAULT. -/
def Sled.ringCtlWrite (x : Ctx) (d : Sled) (rr : RingRegs) (e q : Nat) (v : Word32) : Sled :=
  let old := d.r32 rr.ctl e q
  let keep := BitVec.ofNat 32 (regInfo rr.ctl).rw
  let lg := fld v 12 8
  let cb := fld v 20 16
  let busy := decide (d.inflight e q rr.probe ≠ 0)
  let moved := decide (fld v 29 24 ≠ fld old 29 24 ∨ lg ≠ fld old 12 8 ∨ (!rr.probe ∧ cb ≠ fld old 20 16))
  if busy && (moved || (bit old 0 && !bit v 0)) then d.setRegBit rr.status 1 true e q
  else
    let bad := bit v 0 && (decide (lg < 4 ∨ 16 < lg ∨ (d.r64 rr.base e q).toNat % (2 ^ lg * 32) ≠ 0 ∨ (d.r64 rr.hdr e q).toNat % 64 ≠ 0)
      || (!rr.probe && decide (cb < 4 ∨ 16 < cb ∨ (d.r64 .teHqCbBase e q).toNat % (2 ^ cb * 64) ≠ 0 ∨ (d.r64 .teHqCbHdr e q).toNat % 64 ≠ 0)))
    let d := if bit v 2 then d.setRegBit rr.status 0 false e q else d
    let d := (d.w32 rr.ctl (if bad then (v &&& keep) &&& ~~~1#32 else v &&& keep) e q).setRegBit rr.status 1 bad e q
    if bit v 0 && !bad && !bit old 0 then d.openRing x rr e q (tenantOf (fld v 29 24)) else d

/-- TE_HQ_CTL_WRITE. -/
def execTeHqCtlWrite (_who : Requester) (sl : SledId) (e : EngineId) (h : RingId) (v : Word32) (s : State) : Host.Outcome State Fault Refusal :=
  .next (s.onSled sl fun x d => d.ringCtlWrite x hitRing e h v)

/-- Clear STALL_FAULT of a ring (R287, R310). -/
def Sled.ringResume (d : Sled) (rr : RingRegs) (e q : Nat) : Sled := d.setRegBit rr.status 0 false e q

/-- TE_HQ_RESUME. -/
def execTeHqResume (_who : Requester) (sl : SledId) (e : EngineId) (h : RingId) (s : State) : Host.Outcome State Fault Refusal :=
  .next (s.onSled sl fun _ d => d.ringResume hitRing e h)

/-- PRB_RQ_CTL_WRITE. -/
def execPrbRqCtlWrite (_who : Requester) (sl : SledId) (e : EngineId) (h : RingId) (v : Word32) (s : State) : Host.Outcome State Fault Refusal :=
  .next (s.onSled sl fun x d => d.ringCtlWrite x resRing e h v)

/-- PRB_RQ_RESUME. -/
def execPrbRqResume (_who : Requester) (sl : SledId) (e : EngineId) (h : RingId) (s : State) : Host.Outcome State Fault Refusal :=
  .next (s.onSled sl fun _ d => d.ringResume resRing e h)

end Sys2Proof.Machine
end

