-- ==== Sys2Proof/Machine/Far.lean ====
section
/-! DEFINITION. Memory by PA across the rack: who answers an access to another sled, and reads and writes of a range of bytes wherever it lies (R208, R209, R391, R401). -/
namespace Sys2Proof.Machine

/-- Serve a load at the target. -/
def State.serveLoad (s : State) (dst : SledId) (off n : Nat) : State × List Byte × List Bool :=
  let at' := s.server dst off
  let r := (s.sled at').coRead (s.ctx at') off n
  (s.setSled at' r.1, r.2.1, r.2.2)

/-- Count a failed remote access on its sled. -/
def State.remoteFail (s : State) (sl : SledId) : State := s.onSled sl fun _ d => d.bump32 .mmuRemoteFail

/-- Read bytes at a PA for a unit of sled `sl`: a failed remote read gives uncorrectable bytes (R209). -/
def State.memRead (s : State) (sl : SledId) (pa n : Nat) : State × List Byte × List Bool :=
  let bad := (s.remoteFail sl, List.replicate n (0 : Byte), List.replicate n true)
  match (s.sled sl).target (s.ctx sl) pa with
  | .mem off =>
    let r := (s.sled sl).coRead (s.ctx sl) off n
    (s.setSled sl r.1, r.2.1, r.2.2)
  | .farMem dst off => if s.inService sl && s.inService dst && s.answers dst off then s.serveLoad dst off n else bad
  | _ => bad

/-- Store bytes at a PA for a unit of sled `sl` and a tenant: words that are uncorrectable at the source are poisoned in ECC memory and zero in
a Local-Raw range (R215). A failed remote store is discarded; a Mirror tenant's is performed by the lease holder only (R391). -/
def State.memWrite (s : State) (sl : SledId) (t : TenantId) (pa : Nat) (bs : List Byte) (bad : List Bool) : State :=
  match (s.sled sl).target (s.ctx sl) pa with
  | .mem off => s.onSled sl fun x d => put x d off
  | .farMem dst off =>
    if (s.sled sl).mirror t && !(s.sled sl).hasLease then s
    else if s.inService sl && s.inService dst && s.takesStore dst off then s.onSled dst fun x d => put x d off
    else s.remoteFail sl
  | _ => s.remoteFail sl
where
  put (x : Ctx) (d : Sled) (off : Nat) : Sled :=
    let raw := decide (d.class off = .localRaw)
    let bytes := (bs.zip (bad ++ List.replicate bs.length false)).map fun p => if p.2 then (0 : Byte) else p.1
    let d := d.coWrite x off bytes
    if raw then d
    else ((List.range bs.length).filter fun k => bad.getD k false && (decide (k = 0 ∨ (off + k) % 8 = 0) || !bad.getD (k - 1) false)).foldl
      (fun d k => d.coPoison x (off + k)) d

end Sys2Proof.Machine
end

