-- ==== Sys2Proof/Machine/Porter.lean ====
section
/-! DEFINITION. The Porters: how an entry is checked, given a path, copied or filled, stopped and completed (R210 to R220). -/
namespace Sys2Proof.Machine

/-- Word `i` of an entry's payload, at entry offset 0x10 + 8 i. -/
def Item.word (i : Item) (k : Nat) : Word64 := i.payload.extractLsb' (64 * k) 64

/-- Items of a unit kind on one unit that have not ended, in order of admission. -/
def Sled.unitItems (d : Sled) (kind : Byte) (unit : Nat) : List Item :=
  d.items.filter fun i => decide (i.kind = kind ∧ i.unit = unit ∧ i.st ≠ .finished)

/-- A PORTER entry that completes as ILLEGAL (R217), by its payload. -/
def porterBad (p : BitVec 384) : Bool :=
  let w := fun k => (p.extractLsb' (64 * k) 64 : Word64)
  let width := fld (w 0) 63 32
  let height := fld (w 3) 31 0
  decide (1 < fld (w 0) 7 0 ∨ (fld (w 0) 15 8 ≠ 0 ∧ fld (w 0) 15 8 ≠ 1 ∧ fld (w 0) 15 8 ≠ 0xFF) ∨ fld (w 0) 31 16 ≠ 0 ∨ fld (w 3) 63 32 ≠ 0
    ∨ width = 0 ∨ height = 0 ∨ 268435456 < width * height ∨ (1 < height ∧ (w 5).toNat < width))

/-- The Porter a payload names: DIE 0xFF takes the one with fewer queued entries, die 0 on a tie. -/
def Sled.porterDie (d : Sled) (p : BitVec 384) : Nat :=
  let f := fld p 15 8
  if f = 0xFF then (if (d.unitItems 6 1).length < (d.unitItems 6 0).length then 1 else 0) else f

/-- The named Porter takes another entry (R214). Every entry that has not ended holds one of the 64 places, the one that runs or is carried too, and counts for DIE 0xFF (DESIGN CHOICE,
log 130). -/
def Sled.porterOk (d : Sled) (p : BitVec 384) : Bool :=
  let die := d.porterDie p
  bit (d.r32 .prtCtl die) 0 && decide ((d.unitItems 6 die).length < 64)

/-- The ILLEGAL record of R217. UNIT is the Porter the entry names, 0 where DIE is reserved (DESIGN CHOICE, log 130). -/
def Sled.porterIllegal (x : Ctx) (d : Sled) (i : Item) : Sled :=
  d.stage x i.tenant { code := 7, sev := 2, source := 6, unit := BitVec.ofNat 16 i.unit, queue := BitVec.ofNat 8 i.queue, entry := i.entry }

/-- The Porter's run of a die. -/
def Sled.porter (d : Sled) (die : Nat) : Option PorterRun := mget d.porters die
/-- Replace the Porter's run. -/
def Sled.setPorter (d : Sled) (die : Nat) (r : Option PorterRun) : Sled := { d with porters := mset d.porters die r }

/-! ### Translation of a rectangle (R211, R218) -/

/-- The pieces of a rectangle: rows of `width` bytes from `va`, `pitch` apart, as (byte index, VA, length). -/
def rectPieces (va width height pitch : Nat) : List (Nat × Nat × Nat) :=
  (List.range height).flatMap fun r => (pieces (va + r * pitch) width).map fun p => (r * width + p.2.1, p.1, p.2.2)

/-- Translate the pieces as user mode: each with its PA, and the fault of the lowest VA, if any (R216). -/
def Sled.porterTranslate (x : Ctx) (d : Sled) (t : TenantId) (a : Acc) (ps : List (Nat × Nat × Nat)) : Sled × List Piece × Option TFault :=
  ps.foldl (fun acc p =>
    let r := acc.1.translate x t false a p.2.1
    let low := fun (f : TFault) => match acc.2.2 with
      | some g => if f.va < g.va then some f else some g
      | none => some f
    match r.2 with
    | .ok pa => if r.1.devicePa x pa then (r.1, acc.2.1, low { code := 2, va := p.2.1 }) else (r.1, acc.2.1 ++ [⟨pa, p.1, p.2.2, p.2.1⟩], acc.2.2)
    | .fault f => (r.1, acc.2.1, low f)) (d, [], none)

/-- Some byte of the two lists has one PA. -/
def piecesMeet (a b : List Piece) : Bool := a.any fun p => b.any fun q => decide (p.pa < q.pa + q.len ∧ q.pa < p.pa + p.len)

/-- PA - VA is constant over the pieces (R212). -/
def linear (ps : List Piece) : Bool :=
  match ps with
  | [] => true
  | p :: rest => rest.all fun q => decide ((q.pa : Int) - q.va = (p.pa : Int) - p.va)

/-- A piece without its VA. -/
def Piece.at' (p : Piece) : Nat × Nat × Nat := (p.pos, p.pa, p.len)

/-! ### Moving bytes -/

/-- The parts of pieces that lie in bytes [lo, hi) of the copy. -/
def cut (ps : List (Nat × Nat × Nat)) (lo hi : Nat) : List (Nat × Nat × Nat) :=
  (ps.map fun p => (max p.1 lo, p.2.1 + (max p.1 lo - p.1), min (p.1 + p.2.2) hi - max p.1 lo)).filter fun p => decide (0 < p.2.2)

/-- Read bytes [lo, hi) of the source, in order. -/
def State.portRead (s : State) (sl : SledId) (src : List (Nat × Nat × Nat)) (lo hi : Nat) : State × List Byte × List Bool :=
  (cut src lo hi).foldl (fun acc p =>
    let r := acc.1.memRead sl p.2.1 p.2.2
    (r.1, acc.2.1 ++ r.2.1, acc.2.2 ++ r.2.2)) (s, [], [])

/-- The source words met from byte `lo` of a copy on that are uncorrectable: each counts at its first byte, or where its row begins (R215). -/
def badWords (src : List (Nat × Nat × Nat)) (lo : Nat) (bad : List Bool) : Nat :=
  (cut src lo (lo + bad.length)).foldl (fun n p => n + (List.range p.2.2).countP fun k =>
    bad.getD (p.1 - lo + k) false && (decide ((p.2.1 + k) % 8 = 0) || src.any fun o => decide (o.1 = p.1 + k))) 0

/-- Write bytes [lo, lo + length) of the copy to the destination. -/
def State.portWrite (s : State) (sl : SledId) (t : TenantId) (die : Nat) (dst : List (Nat × Nat × Nat)) (lo : Nat) (bs : List Byte) (bad : List Bool) : State :=
  (cut dst lo (lo + bs.length)).foldl (fun s p =>
    let b := (bad.drop (p.1 - lo)).take p.2.2
    let s := s.memWrite sl t p.2.1 ((bs.drop (p.1 - lo)).take p.2.2) b
    s.onSled sl fun _ d => (d.bump64 .prtBytes die 0 p.2.2).tally t 9 (8 * p.2.2)) s

/-- The bytes a FILL gives [lo, hi): the pattern byte of each destination address mod 8 (Table 6.6). -/
def fillBytes (pat : Word64) (dst : List (Nat × Nat × Nat)) (lo hi : Nat) : List Byte :=
  (cut dst lo hi).flatMap fun p => (List.range p.2.2).map fun k => pat.extractLsb' (8 * ((p.2.1 + k) % 8)) 8

/-- Move the next 4 KiB of a run in its order (R212, R219). -/
def State.portMove (s : State) (sl : SledId) (die : Nat) : State :=
  match (s.sled sl).porter die with
  | none => s
  | some r =>
    let n := min 4096 (r.total - r.moved)
    if n = 0 then s
    else
      let lo := if r.down then r.total - r.moved - n else r.moved
      let t := (((s.sled sl).item r.item).map (·.tenant)).getD 0
      let g : State × List Byte × List Bool :=
        match r.fill, r.stagedCopy with
        | some pat, _ => (s, fillBytes pat r.dst lo (lo + n), [])
        | none, some q => (s, (q.1.drop lo).take n, (q.2.drop lo).take n)
        | none, none =>
          let q := s.portRead sl r.src lo (lo + n)
          (q.1.onSled sl fun _ d => (d.tally t 9 (8 * n)).bump32 .prtPoison die 0 (if r.counted then 0 else badWords r.src lo q.2.2), q.2)
      (g.1.portWrite sl t die r.dst lo g.2.1 g.2.2).onSled sl fun _ d => d.setPorter die (some { r with moved := r.moved + n })

/-- Move `k` times. -/
def State.portMoves (s : State) (sl : SledId) (die : Nat) : Nat → State
  | 0 => s
  | k + 1 => (s.portMove sl die).portMoves sl die k

/-- A byte of the run lies in a range under conversion (R201). -/
def Sled.portStalls (x : Ctx) (d : Sled) (r : PorterRun) : Bool :=
  (r.src ++ r.dst).any fun p => match d.target x p.2.1 with | .mem off => d.converting off | _ => false

/-! ### Starting an entry -/

/-- Start the entry `i`: translate and check everything, then choose the path (R211, R212, R216, R217). Where source and destination fault at one lowest VA the source's fault is reported
(DESIGN CHOICE, log 130). A copy that stages waits while a page of it is under conversion (R201). -/
def State.portStart (s : State) (sl : SledId) (die : Nat) (i : Item) : State :=
  let x : Ctx := s.ctx sl
  let d := (s.sled sl).onItem i.id fun j => { j with st := .running }
  let w := i.word 0
  let width := fld w 63 32
  let height := fld (i.word 3) 31 0
  let total := width * height
  let sp := if height = 1 then 0 else (i.word 4).toNat
  let dp := if height = 1 then 0 else (i.word 5).toNat
  let copy := decide (fld w 7 0 = 0)
  let a := if copy then d.porterTranslate x i.tenant .load (rectPieces (i.word 1).toNat width height sp) else (d, [], none)
  let b := a.1.porterTranslate x i.tenant .store (rectPieces (i.word 2).toNat width height dp)
  let bad : Option TFault := match a.2.2, b.2.2 with
    | some f, some g => if g.va < f.va then some g else some f
    | some f, none => some f
    | none, g => g
  match bad with
  | some f =>
    let d := b.1.stage x i.tenant (f.record 6 die (BitVec.ofNat 8 i.queue) i.entry)
    s.setSled sl (d.setPorter die (some { item := i.id, fault := BitVec.ofNat 8 f.code }))
  | none =>
    let src := a.2.1.map Piece.at'
    let dst := b.2.1.map Piece.at'
    let run : PorterRun := { item := i.id, src := src, dst := dst, total := total, fill := if copy then none else some (i.word 1) }
    if !copy || !piecesMeet a.2.1 b.2.1 then s.setSled sl (b.1.setPorter die (some run))
    else if linear a.2.1 && linear b.2.1 && (sp = dp || height = 1) then
      let first := fun (l : List Piece) => ((l.head?).map (·.pa)).getD 0
      s.setSled sl (b.1.setPorter die (some { run with down := decide (first a.2.1 < first b.2.1) }))
    else if b.1.portStalls x run then s
    else
      let s := (s.setSled sl b.1).portRead sl src 0 total
      let s' := s.1.onSled sl fun _ d => ((d.bump32 .prtStaged die).tally i.tenant 9 (8 * total)).bump32 .prtPoison die 0 (badWords src 0 s.2.2)
      if total ≤ 65536 then s'.onSled sl fun _ d => d.setPorter die (some { run with stagedCopy := some s.2 })
      else
        let base := ((s'.sled sl).r64 .prtScratchBase die).toNat
        (s'.memWrite sl i.tenant base s.2.1 s.2.2).onSled sl fun _ d => (d.tally i.tenant 9 (8 * total)).setPorter die (some { run with src := [(0, base, total)], counted := true })

/-- Start the Porter's oldest entry when it is of the kind of the command and may run. -/
def State.portTake (s : State) (sl : SledId) (die : Nat) (opc : Nat) : State :=
  let d := s.sled sl
  match (d.unitItems 6 die).head? with
  | none => s
  | some i =>
    if bit (d.r32 .prtCtl die) 0 && d.mayRun i.id && (d.porter die).isNone && decide (i.st = .queued) && decide (fld (i.word 0) 7 0 = opc)
        && !d.fenced i.tenant then
      s.portStart sl die i
    else s

/-- PORTER_COPY: the Porter takes its oldest entry, a COPY, and checks it. Its bytes move until PORTER_COMPLETE (DESIGN CHOICE, log 31). -/
def execPorterCopy (sl : SledId) (d : DieId) (s : State) : Host.Outcome State Fault Refusal := .next (s.portTake sl d 0)

/-- PORTER_FILL: the Porter takes its oldest entry, a FILL, and checks it. -/
def execPorterFill (sl : SledId) (d : DieId) (s : State) : Host.Outcome State Fault Refusal := .next (s.portTake sl d 1)

/-- PORTER_COMPLETE: the running entry moves what is left and ends. A carried entry waits for its re-admission. -/
def State.portComplete (s : State) (sl : SledId) (die : Nat) : State :=
  let d := s.sled sl
  match d.porter die with
  | none => s
  | some r =>
    if !d.mayRun r.item || d.portStalls (s.ctx sl) r then s
    else (s.portMoves sl die ((r.total - r.moved + 4095) / 4096)).onSled sl fun _ d => (d.setPorter die none).finish r.item r.status r.fault

def execPorterComplete (sl : SledId) (d : DieId) (s : State) : Host.Outcome State Fault Refusal := .next (s.portComplete sl d)

/-- A running entry stops at settle: how far it has come is left open, some whole number of 4 KiB parts (R219), a free value. -/
def State.portStop (s : State) (sl : SledId) (die : Nat) : State :=
  match (s.sled sl).porter die with
  | none => s
  | some r =>
    if (s.sled sl).portStalls (s.ctx sl) r then s
    else
      let n := (r.total - r.moved + 4095) / 4096
      let k := Config.freeNat sl (s.sled sl).freeCtr % (n + 1)
      (s.onSled sl fun _ d => d.stepFree).portMoves sl die k

/-- Discard the Porter's run when it is of this tenant; bytes already written stay (R220). One that is carried moves nothing more. -/
def State.portDiscard (s : State) (sl : SledId) (t : TenantId) (die : Nat) : State :=
  match (s.sled sl).porter die with
  | none => s
  | some r =>
    if (((s.sled sl).item r.item).map (·.tenant)) = some t then (if (s.sled sl).itemCarried r.item then s else s.portStop sl die).onSled sl fun _ d => d.setPorter die none else s

/-- A write to PRT_CTL: EN needs a scratch area of 256 MiB (Table 6.14). -/
def Sled.prtCtlWrite (d : Sled) (die : Nat) (v : Word32) : Sled :=
  if bit v 0 && decide ((d.r64 .prtScratchSize die).toNat < 2 ^ 28) then (d.setRegBit .prtCtl 0 false die).setRegBit .prtStatus 1 true die
  else (d.setRegBit .prtCtl 0 (bit v 0) die).setRegBit .prtStatus 1 false die

/-- PRT_CTL_WRITE. -/
def execPrtCtlWrite (_who : Requester) (sl : SledId) (d : DieId) (v : Word32) (s : State) : Host.Outcome State Fault Refusal :=
  .next (s.onSled sl fun _ k => k.prtCtlWrite d v)

end Sys2Proof.Machine
end

