-- ==== Sys2Proof/Machine/Regions.lean ====
section
/-! DEFINITION. Invalidation of the translation caches, region entries and their conversions, and the patrol scrubber (06_memory.md). -/
namespace Sys2Proof.Machine

/-! ### Translation invalidations (R197) -/

/-- The tenant a write to MMU_TLBI_CMD names (R197): for a core the one it runs under, which a frame from another sled carries (`frame`); the TENANT field for a Factor.
A TAP write has no tenant and its TENANT field is ignored: whether it names one, and which, is a free value (log 124). -/
def State.tlbiTenant (s : State) (who : Requester) (frame : Option TenantId) (sl : SledId) (v : Word32) : Option TenantId :=
  match who with
  | .core c k => some (frame.getD (mget (s.sled c).cores k : Core).tenant)
  | .tap => if Config.freeBool sl (s.sled sl).freeCtr then some (tenantOf (Config.freeNat sl (s.sled sl).freeCtr % 64)) else none
  | _ => some (tenantOf (fld v 21 16))

/-- The pages an entry covers meet the pages of a command (Table 6.10). -/
def tlbiHit (first log2 : Nat) (e : TlbEntry) : Bool :=
  let n := 2 ^ (min log2 39)
  let lo := e.tag * 2 ^ (levelShift e.level - 16)
  let hi := (e.tag + 1) * 2 ^ (levelShift e.level - 16)
  decide (lo < first + n ∧ first < hi)

/-- Invalidate a tenant's entries as MMU_TLBI_CMD selects them. -/
def Sled.tlbi (d : Sled) (t : TenantId) (v : Word32) : Sled :=
  d.invalidate t fun e => bit v 8 || tlbiHit (fld (d.r64 .mmuTlbiVa) 54 16) (fld v 5 0) e

/-- A write to MMU_TLBI_CMD. -/
def State.tlbiWrite (s : State) (who : Requester) (frame : Option TenantId) (sl : SledId) (v : Word32) : State :=
  let s' := if who = .tap then s.onSled sl fun _ d => d.stepFree else s
  match s.tlbiTenant who frame sl v with
  | some t => s'.onSled sl fun _ d => d.tlbi t v
  | none => s'

/-- TLBI_CMD. -/
def execTlbiCmd (who : Requester) (sl : SledId) (v : Word32) (s : State) : Host.Outcome State Fault Refusal := .next (s.tlbiWrite who none sl v)

/-- TLBI_SYNC_READ: every invalidation has completed at its write here, so the read returns 1. -/
def execTlbiSyncRead (_who : Requester) (_sl : SledId) (s : State) : Host.Outcome State Fault Refusal :=
  .next { s with reply := .val 1 }

/-! ### Region entries (R200, R201, R378) -/

/-- Two entries share a byte. -/
def entriesMeet (a b : Word64) : Bool :=
  decide (fld a 40 32 = fld b 40 32 ∧ fld a 21 12 < fld b 21 12 + fld b 31 22 ∧ fld b 21 12 < fld a 21 12 + fld a 31 22)

/-- An entry that may be made valid: it has a size, stays inside the bank set's local space, and meets no other valid entry. -/
def Sled.entryOk (d : Sled) (i : Nat) (v : Word64) : Bool :=
  decide (1 ≤ fld v 31 22 ∧ 2 ^ 20 * (fld v 21 12 + fld v 31 22) + d.share ≤ 576 * 2 ^ 20)
    && (List.range 1024).all fun j => decide (j = i) || !bit (d.r64 .regEntry j) 0 || !entriesMeet (d.r64 .regEntry j) v

/-- REG_STATUS.BUSY while a conversion runs. -/
def Sled.busyBit (d : Sled) : Sled := d.setRegBit .regStatus 0 (!d.convs.isEmpty)

/-- A write to REG_ENTRY[i]. -/
def Sled.regEntryWrite (d : Sled) (i : Nat) (v : Word64) : Sled :=
  let v := v &&& BitVec.ofNat 64 (regInfo .regEntry).rw
  let old := d.r64 .regEntry i
  if bit v 0 && !d.entryOk i v then d.setRegBit .regStatus 1 true
  else
    let off := if bit old 0 && decide (old ≠ v) then [(⟨i, old, false⟩ : Conv)] else []
    let on := if bit v 0 && decide (old ≠ v) then [(⟨i, v, true⟩ : Conv)] else []
    let d := (d.w64 .regEntry v i).setRegBit .regStatus 1 false
    { d with convs := d.convs ++ off ++ on }.busyBit

/-- REGION_CONVERSION_DONE: the conversions of an entry end; they have not started while a kernel uses the range (R378). -/
def Sled.convDone (d : Sled) (i : Nat) : Sled :=
  if d.convs.any fun c => decide (c.index = i) && d.kernelIn c.entry then d
  else
    let cs := d.convs.filter fun c => decide (c.index = i)
    { cs.foldl (fun (a : Sled) c => a.endConv c) d with convs := d.convs.filter fun c => decide (c.index ≠ i) }.busyBit

def execRegionConversionDone (sl : SledId) (i : Fin 1024) (s : State) : Host.Outcome State Fault Refusal :=
  .next (s.onSled sl fun _ d => d.convDone i)

/-! ### The patrol scrubber (R206) -/

/-- The word after word `k` in the scrubber's walk: up the pool, then the local space of each bank set in turn, then the pool again. -/
def Sled.nextScrub (d : Sled) (k : Nat) : Nat :=
  let pool := 8 * d.share * d.poolStacks
  let base := 0x010000000000 / 8
  let room := (576 * 2 ^ 20 - d.share) / 8
  if k + 1 < pool then k + 1
  else if k < base then base
  else if (k - base) % 2 ^ 27 + 1 < room then k + 1
  else if (k - base) / 2 ^ 27 + 1 < 512 then base + 2 ^ 27 * ((k - base) / 2 ^ 27 + 1)
  else 0

/-- Scrub one word: check, correct and count it, and count the 72 bits of it read, and written back, check bits and all, to the system (Table 13.4 index 8). -/
def Sled.scrubWord (x : Ctx) (d : Sled) : Sled :=
  let k := d.scrub
  let c := d.class (8 * k)
  let d := if c = .interleaved ∨ c = .localEcc then (d.eccNote x k).tally 64 8 (if (d.eccRead k).ce then 144 else 72) else d
  { d with scrub := d.nextScrub k }

/-- PATROL_SCRUB. -/
def execPatrolScrub (sl : SledId) (words : Nat) (s : State) : Host.Outcome State Fault Refusal :=
  .next (s.onSled sl fun x d =>
    if fld (d.r32 .regScrub) 7 0 = 0 then d else (List.range words).foldl (fun d _ => d.scrubWord x) d)

end Sys2Proof.Machine
end

