-- ==== Sys2Proof/Machine/Depot.lean ====
section
/-! DEFINITION. The Depots: placement of the pool (R202, R482), launches and windows, the depot machine and its instructions, the Footpath (11_depots.md). -/
namespace Sys2Proof.Machine

/-! ### Where the pool lies (R202, R482) -/

/-- The Depot whose bank set holds pool offset `a`. -/
def Sled.depotOf (d : Sled) (a : Nat) : Nat :=
  let l := a / 2 ^ 17
  let f := fun k n => l / 2 ^ k % 2 ^ n
  let fold3 := f 0 3 ^^^ f 3 3 ^^^ f 6 3 ^^^ f 9 3 ^^^ f 12 3 ^^^ f 15 3 ^^^ f 18 3 ^^^ f 21 1
  let fold6 := f 0 6 ^^^ f 6 6 ^^^ f 12 6 ^^^ f 18 4
  let st := a / 2 ^ 12 % 8 ^^^ fold3
  let bset := (a / 2 ^ 15 % 4 * 16 + a / 2 ^ 8 % 16) ^^^ fold6
  let g := d.poolStacks
  (d.healthyStacks.getD (st % g) 0) * 64 + bset

/-- The in-bank offset of pool offset `a`. -/
def Sled.inbankOf (d : Sled) (a : Nat) : Nat :=
  let l := a / 2 ^ 17
  let f := fun k n => l / 2 ^ k % 2 ^ n
  let fold3 := f 0 3 ^^^ f 3 3 ^^^ f 6 3 ^^^ f 9 3 ^^^ f 12 3 ^^^ f 15 3 ^^^ f 18 3 ^^^ f 21 1
  let st := a / 2 ^ 12 % 8 ^^^ fold3
  let g := d.poolStacks
  256 * (l * (8 / g) + st / g) + a % 256

/-! ### Depots, kernels, launches -/

/-- A Depot. -/
def Sled.depot (d : Sled) (k : Nat) : Depot := mget d.depots k
/-- Change a Depot. -/
def Sled.onDepot (d : Sled) (k : Nat) (f : Depot → Depot) : Sled := { d with depots := mmod d.depots k f }
/-- The Depot is enabled (DEP_EN). -/
def Sled.depotOn (d : Sled) (k : Nat) : Bool := bit (d.r32 .depEn (k / 32)) (k % 32)
/-- The launch with a serial. -/
def Sled.launch (d : Sled) (n : Nat) : Option Launch := d.launches.find? fun l => decide (l.serial = n)

/-- The work-window time of a sled so far, in ns (R373). -/
def Sled.workTime (x : Ctx) (d : Sled) : Nat := d.bell.workNs + if d.bell.work then x.now - d.bell.openedAt else 0

/-- A register of a kernel. -/
def Kernel.vreg (k : Kernel) (n : Nat) : BitVec 256 := mget k.v n
def Kernel.areg (k : Kernel) (n : Nat) : Word32 := mget k.a n
def Kernel.setV (k : Kernel) (n : Nat) (x : BitVec 256) : Kernel := { k with v := mset k.v n x }
def Kernel.setA (k : Kernel) (n : Nat) (x : Word32) : Kernel := { k with a := mset k.a n x }

/-- Write the status entry of index `k` of a launch (Table 11.5); a status area that cannot be written is recorded (R367). -/
def Sled.depStatus (x : Ctx) (d : Sled) (l : Launch) (k status fault last count : Nat) : Sled :=
  let w := d.uWrite x l.tenant false (l.status + 16 * k) (toBytes (BitVec.ofNat 64 (status + 256 * fault + 65536 * (last % 256))) 8 ++ toBytes (BitVec.ofNat 64 count) 8)
  match w.2 with
  | none => w.1
  | some f => w.1.stage x l.tenant { f.record 5 l.first 0xFF 0xFFFFFFFF with detail0 := BitVec.ofNat 64 last }

/-- One Depot of a launch has ended; with the last one the event is posted and the entry completes (R366). `quiet` posts no event (R375). -/
def Sled.launchEnd (x : Ctx) (d : Sled) (serial : Nat) (fault : Byte) (quiet : Bool) : Sled :=
  match d.launch serial with
  | none => d
  | some l =>
    let l := { l with left := l.left - 1, fault := if l.fault = 0 then fault else l.fault }
    if l.left ≠ 0 then { d with launches := d.launches.map fun o => if o.serial = serial then l else o }
    else
      let d := { d with launches := d.launches.filter fun o => decide (o.serial ≠ serial) }
      if quiet then d
      else
        let d := if l.handle = 0 then d else d.event x l.tenant 6 l.handle
        if l.viaEntry then d.finish l.item 0 l.fault else d

/-- The kernel at the head of a Depot's queue ends with a status and a fault code (R366, R376). -/
def Sled.depEnd (x : Ctx) (d : Sled) (dep : Nat) (k : Kernel) (status : Nat) (fault : Byte) (quiet : Bool) : Sled :=
  let stray := ((d.depot dep).inbox.filter fun m => decide (m.launch = k.launch)).length
  let d := d.onDepot dep fun q => { q with queue := q.queue.filter (fun o => decide (o.launch ≠ k.launch)), inbox := q.inbox.filter fun m => decide (m.launch ≠ k.launch) }
  let d := d.bump32 .depStray 0 0 stray
  match d.launch k.launch with
  | none => d
  | some l => (d.depStatus x l k.index status fault.toNat k.last k.count).launchEnd x k.launch fault quiet

/-- A record of a Depot (Table 11.6). -/
def depRec (dep : Nat) (code : Byte) (index : Nat) : FaultRec :=
  { code := code, sev := 2, source := 5, unit := BitVec.ofNat 16 dep, detail0 := BitVec.ofNat 64 index }

/-- End the running kernel with a status of Table 11.6 and its record. -/
def Sled.depStop (x : Ctx) (d : Sled) (dep : Nat) (k : Kernel) (status : Nat) : Sled :=
  let fault : Byte := if status = 2 then 0x0A else if status = 4 then 7 else 0
  let d := if fault = 0 then d else d.stage x k.tenant (depRec dep fault k.last)
  let d := if status = 6 then d.bump32 .depStalls dep else d
  d.depEnd x dep k status fault false

/-! ### Windows (R351, R352) -/

/-- What the check of one window found: its bytes, or a status with its record. -/
inductive WinRes where
  | ok (w : Window)
  | bad (status : Nat) (rec : FaultRec)
deriving DecidableEq, Repr

/-- Check one piece after another in VA order: the first that fails decides. -/
def Sled.winPieces (x : Ctx) (d : Sled) (t : TenantId) (a : Acc) (dep : Nat) (share : Bool) :
    List (Nat × Nat × Nat) → List Piece → Sled × Sum (List Piece) (Nat × FaultRec)
  | [], got => (d, .inl got)
  | p :: ps, got =>
    let r := d.translate x t false a p.1
    match r.2 with
    | .fault f => (r.1, .inr (3, { f.record 5 dep 0xFF 0xFFFFFFFF with detail0 := 0 }))
    | .ok pa =>
      let good := match r.1.target x pa with
        | .mem off => if share then decide (Sled.class r.1 off = Class.interleaved) else decide (Sled.class r.1 off = Class.localRaw ∧ localBank off = dep)
        | _ => false
      if good then r.1.winPieces x t a dep share ps (got ++ [(⟨pa, p.2.1, p.2.2, p.1⟩ : Piece)])
      else (r.1, .inr (1, { depRec dep 0x0A 0 with addr := BitVec.ofNat 64 p.1 }))

/-- The whole 256-byte granules of a SHARE range that lie in a Depot's bank set, in ascending VA order. -/
def Sled.granules (d : Sled) (x : Ctx) (dep base len : Nat) (ps : List Piece) : List Nat :=
  let first := (base + 255) / 256
  let n := (base + len) / 256 - first
  (List.range n).filterMap fun i =>
    let va := 256 * (first + i)
    (ps.find? fun p => decide (p.va ≤ va ∧ va < p.va + p.len)).bind fun p =>
      let off := p.pa + (va - p.va) - 2 ^ 47 * x.sl.val
      if d.depotOf off = dep then some off else none

/-- Check window `w` of a launch for its Depot of index `k`. -/
def Sled.window (x : Ctx) (d : Sled) (t : TenantId) (dep k : Nat) (bs : List Byte) (w : Nat) : Sled × WinRes :=
  let base := num bs (0x20 + 16 * w) 8
  let v := num bs (0x28 + 16 * w) 8
  let len := v % 2 ^ 32
  let mode := v / 2 ^ 48 % 4
  let share := decide (2 ≤ mode)
  let va := if share then base else base + 65536 * (k * (v / 2 ^ 32 % 2 ^ 16))
  let r := d.winPieces x t (if mode % 2 = 1 then .store else .load) dep share (pieces va len) []
  match r.2 with
  | .inr (st, rec) => (r.1, .bad st rec)
  | .inl ps =>
    if share then
      let g := r.1.granules x dep va len ps
      (r.1, .ok ⟨true, decide (mode % 2 = 1), 256 * g.length, (List.range g.length).map fun i => (256 * i, g.getD i 0, 256)⟩)
    else (r.1, .ok ⟨false, decide (mode % 2 = 1), len, ps.map fun p => (p.pos, p.pa - 2 ^ 47 * x.sl.val, p.len)⟩)

/-- Check the windows of one Depot of a launch in turn; the first that fails ends the check. -/
def Sled.windows (x : Ctx) (d : Sled) (t : TenantId) (dep k : Nat) (bs : List Byte) : List Nat → Kernel → Sled × Kernel
  | [], q => (d, q)
  | w :: ws, q =>
    let r := d.window x t dep k bs w
    match r.2 with
    | .ok win => r.1.windows x t dep k bs ws { q with wins := q.wins ++ [win] }
    | .bad st rec => (r.1, { q with check := st, checkFault := rec.code, checkRec := some rec })

/-! ### Launches (R171, R364, R367, R377, R518) -/

/-- The arguments of a launch are in range. -/
def launchArgs (va first count : Nat) (rsvOk : Bool) : Bool := decide (1 ≤ count ∧ count ≤ 512 ∧ first + count ≤ 512 ∧ va % 64 = 0) && rsvOk

/-- Every named Depot that is enabled has a free slot in its queue of 16 kernels. -/
def Sled.launchRoom (d : Sled) (first count : Nat) : Bool :=
  (List.range count).all fun k => !d.depotOn (first + k) || decide ((d.depot (first + k)).queue.length < 16)

/-- A descriptor the launcher refuses (R367). -/
def descBad (bs : List Byte) : Bool :=
  let nwin := num bs 0x0A 1
  decide (num bs 0 8 % 4 ≠ 0 ∨ num bs 8 2 = 0 ∨ 256 < num bs 8 2 ∨ 8 < nwin ∨ num bs 0x0B 1 ≠ 0 ∨ num bs 0x10 8 % 16 ≠ 0 ∨ num bs 0x18 8 ≠ 0)
    || !zeros bs 0xE0 32
    || ((List.range 8).any fun w => decide (num bs (0x2E + 16 * w) 2 / 4 ≠ 0))
    || (List.range nwin).any fun w =>
      let len := num bs (0x28 + 16 * w) 4
      decide (num bs (0x20 + 16 * w) 8 % 32 ≠ 0 ∨ len % 32 ≠ 0 ∨ len = 0 ∨ 603979776 < len)

/-- The registers a kernel starts with (R353). -/
def Kernel.init (k : Kernel) (bs : List Byte) : Kernel :=
  let k := (k.setV 14 (ofBytes 256 ((bs.drop 0xA0).take 32))).setV 15 (ofBytes 256 ((bs.drop 0xC0).take 32))
  let k := k.setA 0 (BitVec.ofNat 32 k.index)
  (List.range k.wins.length).foldl (fun k w => k.setA (w + 1) (BitVec.ofNat 32 (((k.wins[w]?.map (·.len)).getD 0) / 32))) k

/-- Queue the kernel of index `k`, its windows checked; a Depot that is not enabled writes DISABLED at once (R377). -/
def Sled.launchOne (x : Ctx) (l : Launch) (bs : List Byte) (code : List Word32) (d : Sled) (k : Nat) : Sled :=
  let dep := l.first + k
  if !d.depotOn dep then (d.depStatus x l k 8 0 0 0).launchEnd x l.serial 0 false
  else
    let q : Kernel := { launch := l.serial, index := k, tenant := l.tenant, item := l.item, code := code }
    let r := d.windows x l.tenant dep k bs (List.range (num bs 0x0A 1)) q
    r.1.onDepot dep fun o => { o with queue := o.queue ++ [r.2.init bs] }

/-- A whole launch ends before any kernel runs, so that no instruction index stands in its record (R367). -/
def Sled.launchFail (x : Ctx) (d : Sled) (t : TenantId) (item first : Nat) (viaEntry : Bool) (rec : FaultRec) : Sled :=
  let d := d.stage x t { rec with source := 5, unit := BitVec.ofNat 16 first, sev := 2, queue := 0xFF, entry := 0xFFFFFFFF, detail0 := 0 }
  if viaEntry then d.finish item 0 rec.code else d

/-- An accepted launch: the launcher reads the descriptor and the code, and checks the windows of every Depot in ascending order, so
that all are latched before any kernel starts (R350, R364; log 34). -/
def Sled.launchGo (x : Ctx) (d : Sled) (t : TenantId) (item va first count : Nat) (viaEntry : Bool) : Sled :=
  let ill : FaultRec := { code := 7, addr := BitVec.ofNat 64 va }
  let r := d.uRead x t false va 256
  match r.2 with
  | .fault f => r.1.launchFail x t item first viaEntry (f.record 5 first 0xFF 0xFFFFFFFF)
  | .ok bs bad =>
    if bad.any id || descBad bs then r.1.launchFail x t item first viaEntry ill
    else
      let c := r.1.uRead x t false (num bs 0 8) (4 * num bs 8 2)
      match c.2 with
      | .fault f => c.1.launchFail x t item first viaEntry (f.record 5 first 0xFF 0xFFFFFFFF)
      | .ok cs cbad =>
        if cbad.any id then c.1.launchFail x t item first viaEntry ill
        else
          let l : Launch := ⟨c.1.nextLaunch, t, first, count, item, viaEntry, num bs 0x10 8, BitVec.ofNat 32 (num bs 0x0C 4), count, 0⟩
          let code := (List.range (num bs 8 2)).map fun i => BitVec.ofNat 32 (num cs (4 * i) 4)
          let d := { c.1 with launches := c.1.launches ++ [l], nextLaunch := (c.1.nextLaunch + 1) % 65536 }
          (List.range count).foldl (Sled.launchOne x l bs code) d

/-- DEPOT_KERNEL_START: the kernel its Depot's queue has reached starts, or ends at once where its window check failed (R364). -/
def Sled.kernelStart (x : Ctx) (d : Sled) (dep : Nat) : Sled :=
  match (d.depot dep).queue with
  | [] => d
  | k :: rest =>
    if k.started || !d.mayRun k.item || d.fenced k.tenant then d
    else if k.check ≠ 0 then
      let d := match k.checkRec with
        | some r => d.stage x k.tenant r
        | none => d
      d.depEnd x dep k k.check k.checkFault false
    else d.onDepot dep fun q => { q with queue := { k with started := true, retired := some (d.workTime x) } :: rest }

def execDepotKernelStart (sl : SledId) (d : DepotId) (s : State) : Host.Outcome State Fault Refusal :=
  .next (s.onSled sl fun x k => k.kernelStart x d)

/-! ### The depot instruction word (R356) -/

def dOpc (w : Word32) : Nat := fld w 31 26
def dTy (w : Word32) : Nat := fld w 25 24
def dD (w : Word32) : Nat := fld w 23 20
def dA (w : Word32) : Nat := fld w 19 16
def dB (w : Word32) : Nat := fld w 15 12
def dImm (w : Word32) : Nat := fld w 11 0

/-- The fields an instruction uses: D, A, B, the highest IMM value, and whether TY applies. -/
structure DepForm where
  d : Bool
  a : Bool
  b : Bool
  imm : Nat
  ty : Bool := false
deriving DecidableEq, Repr

/-- The form of an opcode (Table 11.2); none for a reserved one. -/
def depForm (opc : Nat) : Option DepForm :=
  if opc = 0x00 then some ⟨false, false, false, 0, false⟩
  else if opc = 0x01 ∨ opc = 0x03 then some ⟨true, true, false, 4095, false⟩
  else if opc = 0x02 ∨ opc = 0x04 then some ⟨false, true, true, 4095, false⟩
  else if opc = 0x05 then some ⟨true, true, false, 7, false⟩
  else if opc = 0x06 then some ⟨false, true, true, 7, false⟩
  else if opc = 0x07 then some ⟨false, true, true, 255, false⟩
  else if opc = 0x08 then some ⟨true, true, false, 255, false⟩
  else if 0x10 ≤ opc ∧ opc ≤ 0x19 then some ⟨true, true, true, 0, true⟩
  else if 0x1A ≤ opc ∧ opc ≤ 0x1C then some ⟨true, true, false, 0, true⟩
  else if opc = 0x1D then some ⟨true, true, false, 0, false⟩
  else if opc = 0x1E ∨ opc = 0x1F ∨ opc = 0x23 then some ⟨true, true, false, 7, false⟩
  else if opc = 0x20 then some ⟨true, true, true, 0, false⟩
  else if opc = 0x21 then some ⟨true, true, false, 3, false⟩
  else if opc = 0x22 ∨ opc = 0x25 then some ⟨true, true, false, 0, false⟩
  else if opc = 0x24 then some ⟨true, false, true, 0, false⟩
  else if opc = 0x30 then some ⟨true, false, false, 4095, false⟩
  else if opc = 0x31 ∨ opc = 0x32 then some ⟨true, true, false, 4095, false⟩
  else if opc = 0x33 ∨ opc = 0x34 then some ⟨true, true, false, 31, false⟩
  else if opc = 0x35 then some ⟨true, true, true, 0, false⟩
  else if opc = 0x38 then some ⟨false, false, false, 255, false⟩
  else if 0x39 ≤ opc ∧ opc ≤ 0x3B then some ⟨false, true, false, 255, false⟩
  else none

/-- The word is a legal instruction of a kernel of `n` instructions: fields, register groups (R358, R359) and branch target. -/
def depLegal (w : Word32) (n : Nat) : Bool :=
  match depForm (dOpc w) with
  | none => false
  | some f =>
    (f.d || decide (dD w = 0)) && (f.a || decide (dA w = 0)) && (f.b || decide (dB w = 0)) && decide (dImm w ≤ f.imm)
      && decide (dTy w ≤ (if f.ty then 1 else 0))
      && !(decide (dOpc w = 0x03 ∧ 14 < dD w)) && !(decide (dOpc w = 0x04 ∧ 14 < dB w)) && !(decide (dOpc w = 0x21 ∧ 12 < dA w))
      && !(decide (dOpc w = 0x23 ∧ 12 < dD w)) && !(decide (dOpc w = 0x24 ∧ 13 < dD w))
      && !(decide (0x38 ≤ dOpc w ∧ n ≤ dImm w))

/-- What an instruction does next: the next instruction, a branch, a wait, or the end of the kernel with a status. -/
inductive DepRes where
  | fall | go (t : Nat) | wait | stop (status : Nat)
deriving DecidableEq, Repr

/-- A depot instruction's effect. -/
abbrev DepOp := Ctx → Sled → Nat → Kernel → Word32 → Sled × Kernel × DepRes

/-- The running kernel of a Depot. -/
def Sled.running (d : Sled) (dep : Nat) : Option Kernel :=
  match (d.depot dep).queue with
  | k :: _ => if k.started && d.mayRun k.item then some k else none
  | [] => none

/-- Put the running kernel back. -/
def Sled.putKernel (d : Sled) (dep : Nat) (k : Kernel) : Sled :=
  d.onDepot dep fun q => { q with queue := match q.queue with | _ :: r => k :: r | [] => [] }

/-- Execute the instruction at the running kernel when its opcode is `opc` and it is legal (R354, R357). -/
def Sled.depRun (x : Ctx) (d : Sled) (dep opc : Nat) (op : DepOp) : Sled :=
  match d.running dep with
  | none => d
  | some k =>
    match k.code[k.ip]? with
    | none => d
    | some w =>
      if dOpc w ≠ opc ∨ !depLegal w k.code.length then d
      else
        let r := op x d dep k w
        let k' := { r.2.1 with last := k.ip }
        let count := fun (d : Sled) => ((d.w64 .depInstr (d.r64 .depInstr dep + 1) dep).tally k.tenant (if opc = 0x24 then 12 else 13) 1)
        let retire := fun (ip : Nat) => (count r.1).putKernel dep { k' with ip := ip, count := k.count + 1, idle := 0, retired := some (d.workTime x), waitSend := false, waitRecv := false }
        match r.2.2 with
        | .fall => retire (k.ip + 1)
        | .go t => retire t
        | .wait => r.1.putKernel dep k'
        | .stop st =>
          if st = 0 then (count r.1).depStop x dep { k' with count := k.count + 1 } 0 else r.1.depStop x dep k' st

/-- A row of a depot instruction. -/
def depExec (opc : Nat) (op : DepOp) (sl : SledId) (dep : DepotId) (s : State) : Host.Outcome State Fault Refusal :=
  .next (s.onSled sl fun x d => d.depRun x dep opc op)

/-! ### Window accesses -/

/-- The sled-local offset of window byte `o`. -/
def Window.at' (w : Window) (o : Nat) : Nat :=
  match w.parts.find? fun p => decide (p.1 ≤ o ∧ o < p.1 + p.2.2) with
  | some p => p.2.1 + (o - p.1)
  | none => 0

/-- A window of the kernel; one at or above NWIN has no bytes. -/
def Kernel.win (k : Kernel) (w : Nat) : Window := (k.wins[w]?).getD default

/-- Count bytes moved between the bank set and the Depot. -/
def Sled.depMoved (d : Sled) (dep : Nat) (t : TenantId) (n : Nat) : Sled :=
  (d.w64 .depBytes (d.r64 .depBytes dep + BitVec.ofNat 64 n) dep).tally t 8 (8 * n)

/-- Read `n` bytes of a window: the bytes, and whether one is uncorrectable. -/
def Sled.winRead (x : Ctx) (d : Sled) (dep : Nat) (k : Kernel) (w o n : Nat) : Sled × List Byte × Bool :=
  let r := d.rawRead x ((k.win w).at' o) n
  (r.1.depMoved dep k.tenant n, r.2.1, r.2.2.any id)

/-- Write bytes to a window: whole words get fresh check bits, a word written in part keeps an uncorrectable mark (R204, R352). -/
def Sled.winWrite (x : Ctx) (d : Sled) (dep : Nat) (k : Kernel) (w o : Nat) (bs : List Byte) : Sled :=
  let off := (k.win w).at' o
  let lo := off / 8 * 8
  let hi := (off + bs.length + 7) / 8 * 8
  let r := d.rawRead x lo (hi - lo)
  let all := (List.range (hi - lo)).map fun i => if off ≤ lo + i ∧ lo + i < off + bs.length then bs.getD (lo + i - off) 0 else r.2.1.getD i 0
  let part := fun (i : Nat) => decide (lo + 8 * i < off ∨ off + bs.length < lo + 8 * i + 8) && r.2.2.getD (8 * i) false
  let d := (if off = lo ∧ off + bs.length = hi then d else r.1).rawWrite x lo all
  let d := (List.range ((hi - lo) / 8)).foldl (fun (d : Sled) i => if part i then { d with ecc := mset d.ecc (lo / 8 + i) { bad := true } } else d) d
  d.depMoved dep k.tenant bs.length

/-- A window write must wait: the undo log of its range is full (R390). -/
def Sled.winWaits (d : Sled) (k : Kernel) (w o n : Nat) : Bool := !(linesOf ((k.win w).at' o) n).all d.canBack

/-- The window offset of LD, ST, LDW and STN, and the kernel with aA stepped. -/
def ldstAt (k : Kernel) (w : Word32) : Nat × Kernel :=
  ((k.areg (dA w)).toNat + dImm w / 8 % 16 * 32, k.setA (dA w) (k.areg (dA w) + BitVec.ofNat 32 (dImm w / 128 * 32)))

/-- An access of `n` bytes at a window offset is inside the usable length, to a window that may be written if it is a store (log 32). -/
def Kernel.inWin (k : Kernel) (w o n : Nat) (store : Bool) : Bool := decide (o + n ≤ (k.win w).len) && (!store || (k.win w).write)

/-- Load 32 bytes: what the loaded bytes do to the kernel is `f`. -/
def depLoad (f : Kernel → Nat → BitVec 256 → Kernel) : DepOp := fun x d dep k w =>
  let p := ldstAt k w
  let n := dImm w % 8
  if (k.areg (dA w)).toNat % 32 ≠ 0 ∨ !k.inWin n p.1 32 false then (d, k, .stop 2)
  else
    let r := d.winRead x dep k n p.1 32
    if r.2.2 then (r.1, k, .stop 5) else (r.1, f p.2 (dD w) (ofBytes 256 r.2.1), .fall)

/-- Store 32 bytes that `f` takes from the kernel. -/
def depStore (f : Kernel → Nat → BitVec 256) : DepOp := fun x d dep k w =>
  let p := ldstAt k w
  let n := dImm w % 8
  if (k.areg (dA w)).toNat % 32 ≠ 0 ∨ !k.inWin n p.1 32 true then (d, k, .stop 2)
  else if d.winWaits k n p.1 32 then (d, k, .wait)
  else (d.winWrite x dep k n p.1 (toBytes (f k (dB w)) 32), p.2, .fall)

/-- Lane `j` of a vector. -/
def lane (v : BitVec 256) (j : Nat) : Word32 := v.extractLsb' (32 * j) 32
/-- A vector of 8 lanes. -/
def ofLanes (f : Nat → Word32) : BitVec 256 := ofBytes 256 ((List.range 8).flatMap fun j => toBytes (f j) 4)

def execDepEnd (sl : SledId) (d : DepotId) (s : State) : Host.Outcome State Fault Refusal :=
  depExec 0x00 (fun _ k _ q _ => (k, q, .stop 0)) sl d s
def execDepLd (sl : SledId) (d : DepotId) (s : State) : Host.Outcome State Fault Refusal :=
  depExec 0x01 (depLoad fun k r v => k.setV r v) sl d s
def execDepSt (sl : SledId) (d : DepotId) (s : State) : Host.Outcome State Fault Refusal :=
  depExec 0x02 (depStore fun k r => k.vreg r) sl d s

/-- LDW: 16 BF16 values widened exactly into two vectors. -/
def execLdw (sl : SledId) (d : DepotId) (s : State) : Host.Outcome State Fault Refusal :=
  depExec 0x03 (depLoad fun k r v =>
    let half := fun (h : Nat) => ofLanes fun j => BitVec.ofNat 32 (65536 * (v.extractLsb' (16 * (8 * h + j)) 16).toNat)
    (k.setV r (half 0)).setV (r + 1) (half 1)) sl d s

/-- One FP32 lane narrowed to BF16. -/
def toBf16 (v : Word32) : BitVec 16 := BitVec.ofNat 16 (Fmt.bf16.ofVal .near (Fmt.fp32.unpack v.toNat) false).bits

/-- STN: two vectors narrowed to 16 BF16 values. -/
def execStn (sl : SledId) (d : DepotId) (s : State) : Host.Outcome State Fault Refusal :=
  depExec 0x04 (depStore fun k r =>
    ofBytes 256 ((List.range 16).flatMap fun i => toBytes (toBf16 (lane (k.vreg (r + i / 8)) (i % 8))) 2)) sl d s

/-- GATHER: lane by lane. -/
def depGather : DepOp := fun x d dep k w =>
  let n := dImm w % 8
  let at' := fun j => 4 * (lane (k.vreg (dA w)) j).toNat
  if (List.range 8).any fun j => !k.inWin n (at' j) 4 false then (d, k, .stop 2)
  else
    let r := (List.range 8).foldl (fun (acc : Sled × List Byte × Bool) j =>
      let q := acc.1.winRead x dep k n (at' j) 4
      (q.1, acc.2.1 ++ q.2.1, acc.2.2 || q.2.2)) (d, [], false)
    if r.2.2 then (r.1, k, .stop 5) else (r.1, k.setV (dD w) (ofBytes 256 r.2.1), .fall)

def execGather (sl : SledId) (d : DepotId) (s : State) : Host.Outcome State Fault Refusal := depExec 0x05 depGather sl d s

/-- SCATTER: lanes in ascending order, so that the highest wins on equal offsets. -/
def depScatter : DepOp := fun x d dep k w =>
  let n := dImm w % 8
  let at' := fun j => 4 * (lane (k.vreg (dA w)) j).toNat
  if (List.range 8).any fun j => !k.inWin n (at' j) 4 true then (d, k, .stop 2)
  else if (List.range 8).any fun j => d.winWaits k n (at' j) 4 then (d, k, .wait)
  else ((List.range 8).foldl (fun (d : Sled) j => d.winWrite x dep k n (at' j) (toBytes (lane (k.vreg (dB w)) j) 4)) d, k, .fall)

def execScatter (sl : SledId) (d : DepotId) (s : State) : Host.Outcome State Fault Refusal := depExec 0x06 depScatter sl d s

/-! ### The Footpath (R362, R376) -/

/-- The inbox of a Depot is full. -/
def Sled.inboxFull (d : Sled) (dep : Nat) : Bool := decide (16 ≤ (d.depot dep).inbox.length)

/-- FSEND. -/
def depFsend : DepOp := fun _ d dep k w =>
  match d.launch k.launch with
  | none => (d, k, .stop 2)
  | some l =>
    let i := (k.areg (dA w)).toNat
    if l.count ≤ i then (d, k, .stop 2)
    else if d.inboxFull (l.first + i) then
      (if k.waitSend then d else d.bump32 .depFootWaits (dep / 64), { k with waitSend := true }, .wait)
    else
      let m : Msg := ⟨l.first + i, dep, k.tenant, k.launch, BitVec.ofNat 8 (dImm w), k.index, k.vreg (dB w)⟩
      let d := { d with footpath := d.footpath ++ [m] }
      let d := d.w64 .depFootMsgs (d.r64 .depFootMsgs (dep / 64) + 1) (dep / 64)
      (d.tally k.tenant (if dep / 64 = m.dest / 64 then 14 else 15) 512, k, .fall)

def execFsend (sl : SledId) (d : DepotId) (s : State) : Host.Outcome State Fault Refusal := depExec 0x07 depFsend sl d s

/-- FRECV. -/
def depFrecv : DepOp := fun _ d dep k w =>
  let mine := fun (m : Msg) => decide (m.launch = k.launch ∧ m.tag = BitVec.ofNat 8 (dImm w))
  match (d.depot dep).inbox.find? mine with
  | none => (d, { k with waitRecv := true }, .wait)
  | some m =>
    (d.onDepot dep fun q => { q with inbox := q.inbox.erase m }, (k.setV (dD w) m.payload).setA (dA w) (BitVec.ofNat 32 m.index), .fall)

def execFrecv (sl : SledId) (d : DepotId) (s : State) : Host.Outcome State Fault Refusal := depExec 0x08 depFrecv sl d s

/-- FOOTPATH_MESSAGE: the oldest message on its way to a Depot arrives; one for a launch that has ended there is discarded (R376), and one that finds the inbox full stays
in transit, since no message is dropped there (R362). -/
def Sled.footArrive (d : Sled) (dep : Nat) : Sled :=
  match d.footpath.find? fun m => decide (m.dest = dep) with
  | none => d
  | some m =>
    let out := { d with footpath := d.footpath.erase m }
    if !((d.depot dep).queue.any fun k => decide (k.launch = m.launch)) then out.bump32 .depStray
    else if d.inboxFull dep then d
    else out.onDepot dep fun q => { q with inbox := q.inbox ++ [m] }

def execFootpathMessage (sl : SledId) (d : DepotId) (s : State) : Host.Outcome State Fault Refusal :=
  .next (s.onSled sl fun _ k => k.footArrive d)

/-! ### Lane arithmetic (R355) -/

/-- A compute instruction that writes only the kernel. -/
def depPure (f : Kernel → Word32 → Kernel) : DepOp := fun _ d _ k w => (d, f k w, .fall)

/-- A per-lane operation of two sources and the old destination; `i` for INT32, `g` for FP32. -/
def depLanes (i g : Word32 → Word32 → Word32 → Word32) : DepOp := depPure fun k w =>
  k.setV (dD w) (ofLanes fun j => (if dTy w = 0 then i else g) (lane (k.vreg (dA w)) j) (lane (k.vreg (dB w)) j) (lane (k.vreg (dD w)) j))

/-- An FP32 operation on lanes, by its bits. -/
def fp2 (f : Nat → Nat → Nat) (a b : Word32) : Word32 := BitVec.ofNat 32 (f a.toNat b.toNat)
/-- A lane of ones when true. -/
def mask32 (b : Bool) : Word32 := if b then BitVec.allOnes 32 else 0
/-- INT32 minimum and maximum are signed. -/
def imin (a b : Word32) : Word32 := if a.slt b then a else b
def imax (a b : Word32) : Word32 := if a.slt b then b else a
def fminBits (a b : Nat) : Nat := (Fmt.fp32.minmax false a b).bits
def fmaxBits (a b : Nat) : Nat := (Fmt.fp32.minmax true a b).bits

def execDepAdd (sl : SledId) (d : DepotId) (s : State) : Host.Outcome State Fault Refusal :=
  depExec 0x10 (depLanes (fun a b _ => a + b) fun a b _ => fp2 fAdd a b) sl d s
def execDepSub (sl : SledId) (d : DepotId) (s : State) : Host.Outcome State Fault Refusal :=
  depExec 0x11 (depLanes (fun a b _ => a - b) fun a b _ => fp2 fSub a b) sl d s
def execDepMul (sl : SledId) (d : DepotId) (s : State) : Host.Outcome State Fault Refusal :=
  depExec 0x12 (depLanes (fun a b _ => a * b) fun a b _ => fp2 fMul a b) sl d s
def execDepFma (sl : SledId) (d : DepotId) (s : State) : Host.Outcome State Fault Refusal :=
  depExec 0x13 (depLanes (fun a b c => a * b + c) fun a b c => BitVec.ofNat 32 (Fmt.fp32.fma .near a.toNat b.toNat c.toNat).bits) sl d s
def execDepMin (sl : SledId) (d : DepotId) (s : State) : Host.Outcome State Fault Refusal :=
  depExec 0x14 (depLanes (fun a b _ => imin a b) fun a b _ => fp2 fminBits a b) sl d s
def execDepMax (sl : SledId) (d : DepotId) (s : State) : Host.Outcome State Fault Refusal :=
  depExec 0x15 (depLanes (fun a b _ => imax a b) fun a b _ => fp2 fmaxBits a b) sl d s
def execCmpeq (sl : SledId) (d : DepotId) (s : State) : Host.Outcome State Fault Refusal :=
  depExec 0x16 (depLanes (fun a b _ => mask32 (decide (a = b))) fun a b _ => mask32 (fEq a.toNat b.toNat)) sl d s
def execCmplt (sl : SledId) (d : DepotId) (s : State) : Host.Outcome State Fault Refusal :=
  depExec 0x17 (depLanes (fun a b _ => mask32 (a.slt b)) fun a b _ => mask32 (fLt a.toNat b.toNat)) sl d s
def execCmple (sl : SledId) (d : DepotId) (s : State) : Host.Outcome State Fault Refusal :=
  depExec 0x18 (depLanes (fun a b _ => mask32 (a.sle b)) fun a b _ => mask32 (fLe a.toNat b.toNat)) sl d s
def execSel (sl : SledId) (d : DepotId) (s : State) : Host.Outcome State Fault Refusal :=
  depExec 0x19 (depLanes (fun a b c => if c ≠ 0 then a else b) fun a b c => if c ≠ 0 then a else b) sl d s

/-- A reduction of the eight lanes of vA into lane 0; the other lanes become zero. -/
def depReduce (i : Word32 → Word32 → Word32) (g : List Nat → Nat) : DepOp := depPure fun k w =>
  let ls := (List.range 8).map (lane (k.vreg (dA w)))
  let r := if dTy w = 0 then ls.tail.foldl i (ls.headD 0) else BitVec.ofNat 32 (g (ls.map BitVec.toNat))
  k.setV (dD w) (ofLanes fun j => if j = 0 then r else 0)

/-- The exact sum of FP32 values, rounded once. -/
def fp32Sum (l : List Nat) : Nat := (Fmt.fp32.sum .near (l.map Fmt.fp32.unpack) false 0).bits

def execRedadd (sl : SledId) (d : DepotId) (s : State) : Host.Outcome State Fault Refusal :=
  depExec 0x1A (depReduce (fun a b => a + b) fp32Sum) sl d s
def execRedmin (sl : SledId) (d : DepotId) (s : State) : Host.Outcome State Fault Refusal :=
  depExec 0x1B (depReduce imin fun l => l.tail.foldl fminBits (l.headD 0)) sl d s
def execRedmax (sl : SledId) (d : DepotId) (s : State) : Host.Outcome State Fault Refusal :=
  depExec 0x1C (depReduce imax fun l => l.tail.foldl fmaxBits (l.headD 0)) sl d s

def execSplat (sl : SledId) (d : DepotId) (s : State) : Host.Outcome State Fault Refusal :=
  depExec 0x1D (depPure fun k w => k.setV (dD w) (ofLanes fun _ => k.areg (dA w))) sl d s
def execMova (sl : SledId) (d : DepotId) (s : State) : Host.Outcome State Fault Refusal :=
  depExec 0x1E (depPure fun k w => k.setA (dD w) (lane (k.vreg (dA w)) (dImm w))) sl d s
def execVins (sl : SledId) (d : DepotId) (s : State) : Host.Outcome State Fault Refusal :=
  depExec 0x1F (depPure fun k w => k.setV (dD w) (ofLanes fun j => if j = dImm w then k.areg (dA w) else lane (k.vreg (dD w)) j)) sl d s

/-! ### Boxes (R360) -/

/-- BOXU. -/
def execBoxu (sl : SledId) (d : DepotId) (s : State) : Host.Outcome State Fault Refusal :=
  depExec 0x20 (depPure fun k w =>
    let a := k.vreg (dA w)
    let b := k.vreg (dB w)
    k.setV (dD w) (ofLanes fun j => if j < 3 then fp2 fminBits (lane a j) (lane b j) else if j < 6 then fp2 fmaxBits (lane a j) (lane b j) else lane a j)) sl d s

/-- The bytes of a register group. -/
def Kernel.group (k : Kernel) (r n : Nat) : List Byte := (List.range n).flatMap fun i => toBytes (k.vreg (r + i)) 32

/-- TRIBOX. Lanes 6 and 7 keep their values. -/
def depTribox (k : Kernel) (w : Word32) : Kernel :=
  let bs := k.group (dA w) 4
  let t := dImm w
  let vert := fun v a => num bs (0x14 + 36 * t + 12 * v + 4 * a) 4
  k.setV (dD w) (ofLanes fun j =>
    if 6 ≤ j then lane (k.vreg (dD w)) j
    else if 3 ≤ t ∨ num bs 0 1 ≤ t then BitVec.ofNat 32 (if j < 3 then fInf else fNInf)
    else
      let f := if j < 3 then fminBits else fmaxBits
      BitVec.ofNat 32 (f (f (vert 0 (j % 3)) (vert 1 (j % 3))) (vert 2 (j % 3))))

def execTribox (sl : SledId) (d : DepotId) (s : State) : Host.Outcome State Fault Refusal := depExec 0x21 (depPure depTribox) sl d s

/-- The exact value of FP32 bits. -/
def f32 (b : Word32) : Dy := (Fmt.fp32.unpack b.toNat).dy
/-- 2 ^ (E - 127) as an exact value. -/
def expScale (e : Nat) : Dy := ⟨1, (e : Int) - 127⟩

/-- The smallest E in 0 to 254 for which 255 x 2^(E - 127) reaches `span`, searched upward from `e`. -/
def expFor (span : Dy) (e : Nat) : Nat → Nat
  | 0 => e
  | n + 1 => if span.le ((expScale e).mul ⟨255, 0⟩) then e else expFor span (e + 1) n

/-- The EXP of one axis. The difference of infinite bounds is taken in the extended reals; where no E reaches it, or it is no number, the rule gives none. -/
def axisExp : Val → Val → Option Nat
  | .fin hn hm he, .fin ln lm le => some (expFor ((Val.fin hn hm he).dy.add (Val.fin ln lm le).dy.neg) 0 254)
  | .inf true, .inf false | .inf true, .fin _ _ _ | .fin _ _ _, .inf false => some 0
  | _, _ => none

/-- Byte `j` of a free word. -/
def freeByteOf (v : Word64) (j : Nat) : Nat := (v.extractLsb' (8 * j) 8).toNat

/-- NHDR. Where the rule gives an axis no exponent, that byte is free (log 35). -/
def depNhdr : DepOp := fun x d _ k w =>
  let b := k.vreg (dA w)
  let es := (List.range 3).map fun i => axisExp (Fmt.fp32.unpack (lane b (3 + i)).toNat) (Fmt.fp32.unpack (lane b i).toNat)
  let odd := es.any (·.isNone)
  let ex : Word32 := ofBytes 32 ((List.range 3).map fun i => BitVec.ofNat 8 ((es.getD i none).getD (freeByteOf (Config.freeWord x.sl d.freeCtr) i)))
  (if odd then d.stepFree else d, k.setV (dD w) (ofLanes fun j => if j < 3 then lane b j else if j = 3 then ex else lane (k.vreg (dD w)) j), .fall)

def execNhdr (sl : SledId) (d : DepotId) (s : State) : Host.Outcome State Fault Refusal := depExec 0x22 depNhdr sl d s

/-- A bound in units of the axis scale, rounded down or up and clamped to 0 to 255. -/
def quant (up : Bool) (v origin : Dy) (e : Nat) : Nat :=
  let q := v.add origin.neg
  let k := q.e - ((e : Int) - 127)
  let i : Int := if 0 ≤ k then q.m * 2 ^ k.toNat else if up then -(-q.m / 2 ^ (-k).toNat) else q.m / 2 ^ (-k).toNat
  (max 0 (min 255 i)).toNat

/-- A bound against ORIGIN on one axis. The difference of infinite values is taken in the extended reals and clamps; where it is no number the rule gives no byte. -/
def axisQuant (up : Bool) (e : Nat) : Val → Val → Option Nat
  | .fin vn vm ve, .fin on om oe => some (quant up (Val.fin vn vm ve).dy (Val.fin on om oe).dy e)
  | .inf s, .fin _ _ _ => some (if s then 0 else 255)
  | .fin _ _ _, .inf s => some (if s then 255 else 0)
  | .inf s, .inf o => if s = o then none else some (if s then 0 else 255)
  | _, _ => none

/-- The six bytes of a quantized child; a byte the rule does not give is free (log 35). -/
def depQchild : DepOp := fun x d _ k w =>
  let h := k.vreg (dD w)
  let b := k.vreg (dA w)
  let lo := fun i => (lane b i).toNat
  let hi := fun i => (lane b (3 + i)).toNat
  let empty := (List.range 3).any fun i => fLt (hi i) (lo i)
  let one := fun (up : Bool) (v : Nat) (i : Nat) => axisQuant up ((h.extractLsb' (8 * (12 + i)) 8).toNat) (Fmt.fp32.unpack v) (Fmt.fp32.unpack (lane h i).toNat)
  let qs := (List.range 6).map fun j => if j < 3 then one false (lo j) j else one true (hi (j - 3)) (j - 3)
  let odd := !empty && qs.any (·.isNone)
  let six : List Byte :=
    if empty then [255, 255, 255, 0, 0, 0]
    else (List.range 6).map fun j => BitVec.ofNat 8 ((qs.getD j none).getD (freeByteOf (Config.freeWord x.sl d.freeCtr) j))
  let img := k.group (dD w) 4
  let c := 0x20 + 12 * dImm w
  let img := img.take c ++ six ++ img.drop (c + 6)
  (if odd then d.stepFree else d, (List.range 4).foldl (fun k i => k.setV (dD w + i) (ofBytes 256 ((img.drop (32 * i)).take 32))) k, .fall)

def execQchild (sl : SledId) (d : DepotId) (s : State) : Host.Outcome State Fault Refusal := depExec 0x23 depQchild sl d s

/-! ### ADAM (R359) and CRC (R361) -/

/-- A sum of products of FP32 values, formed exactly and rounded once; `neg` products are subtracted. -/
def fpDot (ts : List (Bool × List Nat)) : Nat :=
  let val := fun (l : List Nat) => (l.tail.map Fmt.fp32.unpack).foldl Val.mul (Fmt.fp32.unpack (l.headD 0))
  let bad := ts.any fun t => (t.2.any fun b => (Fmt.fp32.unpack b).isZero) && (t.2.any fun b => (Fmt.fp32.unpack b).isInf)
  (Fmt.fp32.sum .near (ts.map fun t => if t.1 then (val t.2).negate else val t.2) bad 0).bits

/-- One lane of ADAM: p', m', u'. -/
def adamLane (h : Nat → Nat) (p m u g : Nat) : Nat × Nat × Nat :=
  let m' := fpDot [(false, [h 0, m]), (false, [h 1, g])]
  let u' := fpDot [(false, [h 2, u]), (false, [h 3, g, g])]
  let st := fAdd (Fmt.fp32.sqrt .near u').bits (h 5)
  let q := fDiv m' st
  (fpDot [(false, [p]), (true, [h 4, q]), (true, [h 6, p])], m', u')

def execAdam (sl : SledId) (d : DepotId) (s : State) : Host.Outcome State Fault Refusal :=
  depExec 0x24 (depPure fun k w =>
    let r := fun j => adamLane (fun i => (lane (k.vreg 15) i).toNat) (lane (k.vreg (dD w)) j).toNat (lane (k.vreg (dD w + 1)) j).toNat
      (lane (k.vreg (dD w + 2)) j).toNat (lane (k.vreg (dB w)) j).toNat
    ((k.setV (dD w) (ofLanes fun j => BitVec.ofNat 32 (r j).1)).setV (dD w + 1) (ofLanes fun j => BitVec.ofNat 32 (r j).2.1)).setV (dD w + 2)
      (ofLanes fun j => BitVec.ofNat 32 (r j).2.2)) sl d s

/-- One bit of the reflected CRC-32C. -/
def crcBit (c : Word32) : Word32 := if bit c 0 then (c >>> 1) ^^^ 0x82F63B78#32 else c >>> 1
/-- CRC-32C over bytes, without inversions. -/
def crc32c (c : Word32) (bs : List Byte) : Word32 := bs.foldl (fun c b => (List.range 8).foldl (fun c _ => crcBit c) (c ^^^ b.zeroExtend 32)) c

def execCrc (sl : SledId) (d : DepotId) (s : State) : Host.Outcome State Fault Refusal :=
  depExec 0x25 (depPure fun k w => k.setA (dD w) (crc32c (k.areg (dD w)) (toBytes (k.vreg (dA w)) 32))) sl d s

/-! ### Scalars and branches -/

def execDepMovi (sl : SledId) (d : DepotId) (s : State) : Host.Outcome State Fault Refusal :=
  depExec 0x30 (depPure fun k w => k.setA (dD w) (BitVec.ofNat 32 (dImm w))) sl d s
def execAddi (sl : SledId) (d : DepotId) (s : State) : Host.Outcome State Fault Refusal :=
  depExec 0x31 (depPure fun k w => k.setA (dD w) (k.areg (dA w) + (BitVec.ofNat 12 (dImm w)).signExtend 32)) sl d s
def execAndi (sl : SledId) (d : DepotId) (s : State) : Host.Outcome State Fault Refusal :=
  depExec 0x32 (depPure fun k w => k.setA (dD w) (k.areg (dA w) &&& BitVec.ofNat 32 (dImm w))) sl d s
def execShli (sl : SledId) (d : DepotId) (s : State) : Host.Outcome State Fault Refusal :=
  depExec 0x33 (depPure fun k w => k.setA (dD w) (k.areg (dA w) <<< dImm w)) sl d s
def execShri (sl : SledId) (d : DepotId) (s : State) : Host.Outcome State Fault Refusal :=
  depExec 0x34 (depPure fun k w => k.setA (dD w) (k.areg (dA w) >>> dImm w)) sl d s
def execAdda (sl : SledId) (d : DepotId) (s : State) : Host.Outcome State Fault Refusal :=
  depExec 0x35 (depPure fun k w => k.setA (dD w) (k.areg (dA w) + k.areg (dB w))) sl d s
def execDepBr (sl : SledId) (d : DepotId) (s : State) : Host.Outcome State Fault Refusal :=
  depExec 0x38 (fun _ e _ k w => (e, k, .go (dImm w))) sl d s
def execBz (sl : SledId) (d : DepotId) (s : State) : Host.Outcome State Fault Refusal :=
  depExec 0x39 (fun _ e _ k w => (e, k, if k.areg (dA w) = 0 then .go (dImm w) else .fall)) sl d s
def execBnz (sl : SledId) (d : DepotId) (s : State) : Host.Outcome State Fault Refusal :=
  depExec 0x3A (fun _ e _ k w => (e, k, if k.areg (dA w) ≠ 0 then .go (dImm w) else .fall)) sl d s

/-- LOOP. -/
def depLoopOp : DepOp := fun _ d _ k w =>
  let a := k.areg (dA w)
  if a = 0 then (d, k, .fall) else (d, k.setA (dA w) (a - 1), if a - 1 ≠ 0 then .go (dImm w) else .fall)

def execDepLoop (sl : SledId) (d : DepotId) (s : State) : Host.Outcome State Fault Refusal := depExec 0x3B depLoopOp sl d s

/-- DEP_ILLEGAL: the kernel has reached a word that is no legal instruction, or has run past its last one (R356). -/
def Sled.depIllegal (x : Ctx) (d : Sled) (dep : Nat) : Sled :=
  match d.running dep with
  | none => d
  | some k =>
    match k.code[k.ip]? with
    | none => d.depStop x dep k 4
    | some w => if depLegal w k.code.length then d else d.depStop x dep { k with last := k.ip } 4

def execDepIllegal (sl : SledId) (d : DepotId) (s : State) : Host.Outcome State Fault Refusal :=
  .next (s.onSled sl fun x k => k.depIllegal x d)

/-- DEPOT_STALL_TIMEOUT: the running kernel has retired nothing for 1,000 µs of work-window time (R373). -/
def State.depStalled (s : State) (sl : SledId) (dep : Nat) : State :=
  match (s.sled sl).running dep with
  | none => s
  | some k =>
    let idle := k.idle + ((k.retired.map fun t => (s.sled sl).workTime (s.ctx sl) - t).getD 0)
    (s.upTo (s.now + (1000000 - idle))).onSled sl fun x d => d.depStop x dep k 6

def execDepotStallTimeout (sl : SledId) (d : DepotId) (s : State) : Host.Outcome State Fault Refusal := .next (s.depStalled sl d)

/-! ### Kernels discarded, paused and resumed (R373 to R376) -/

/-- Discard the kernels of some launches, writing ABORTED where `write` is set (R375), and no status under a Mirror rollback (R374). Their messages in the inboxes are discarded and
counted (R376); those in transit are too under a rollback, and else when they arrive. -/
def Sled.dropLaunches (x : Ctx) (d : Sled) (p : Launch → Bool) (write : Bool) : Sled :=
  let gone := d.launches.filter p
  let mine := fun (n : Nat) => gone.any fun l => decide (l.serial = n)
  let ks := d.depots.flatMap fun q => q.2.queue.filter fun k => mine k.launch
  let d := if write then
      ks.foldl (fun (d : Sled) k => match d.launch k.launch with
        | some l => d.depStatus x l k.index 7 0 k.last k.count
        | none => d) d
    else d
  let held := d.depots.foldl (fun (a : Nat) q => a + q.2.inbox.countP fun m => mine m.launch) 0
  let moving := if write then 0 else d.footpath.countP fun m => mine m.launch
  let clean := fun (q : Depot) => { q with queue := q.queue.filter fun k => !mine k.launch, inbox := q.inbox.filter fun m => !mine m.launch }
  let d := { d with depots := d.depots.map fun (q : Nat × Depot) => (q.1, clean q.2), launches := d.launches.filter fun l => !p l,
                    footpath := if write then d.footpath else d.footpath.filter fun m => !mine m.launch }
  d.bump32 .depStray 0 0 (held + moving)

/-- The kernels of a tenant are discarded. -/
def Sled.dropKernels (x : Ctx) (d : Sled) (t : TenantId) (write : Bool) : Sled := d.dropLaunches x (fun l => decide (l.tenant = t)) write

/-- Change the kernels of an item that have started. -/
def Sled.onKernels (d : Sled) (item : Nat) (f : Kernel → Kernel) : Sled :=
  { d with depots := d.depots.map fun p => (p.1, { p.2 with queue := p.2.queue.map fun k => if k.started && decide (k.item = item) then f k else k }) }

/-- The kernels of an item pause: the work-window time without a retired instruction stands still (R373, R374). -/
def Sled.pauseKernels (x : Ctx) (d : Sled) (item : Nat) : Sled :=
  d.onKernels item fun k => { k with idle := k.idle + ((k.retired.map fun t => d.workTime x - t).getD 0), retired := none }
/-- The kernels of an item go on. -/
def Sled.resumeKernels (x : Ctx) (d : Sled) (item : Nat) : Sled := d.onKernels item fun k => { k with retired := some (d.workTime x) }

/-- Kernels of an item are held or queued on some Depot. -/
def Sled.hasKernels (d : Sled) (item : Nat) : Bool := d.depots.any fun p => p.2.queue.any fun k => decide (k.item = item)
/-- Kernels of an item have started on some Depot (R374). -/
def Sled.kernelsRun (d : Sled) (item : Nat) : Bool := d.depots.any fun p => p.2.queue.any fun k => k.started && decide (k.item = item)

end Sys2Proof.Machine
end

