-- ==== Sys2Proof/Machine/RasterMath.lean ====
section
/-! DEFINITION. Raster arithmetic: clipping and the window transform (R323, R324), coverage and depth (R325), tests (Table 10.8), surface formats (Table 10.5) and blending (R329). -/
namespace Sys2Proof.Machine

/-! ### Clipping and the window transform -/

/-- A clip-space vertex: exact x, y, z, w, and the scale its intersections have taken (1 for an original vertex). -/
structure CVert where
  x : Dy
  y : Dy
  z : Dy
  w : Dy
  s : Dy
deriving DecidableEq, Repr

def Dy.zero : Dy := ⟨0, 0⟩
def Dy.sub (a b : Dy) : Dy := a.add b.neg
/-- a ≥ 0. -/
def Dy.nonneg (a : Dy) : Bool := decide (0 ≤ a.m)

/-- p scaled by a plus q scaled by b. -/
def CVert.mix (p q : CVert) (a b : Dy) : CVert :=
  let f := fun (g : CVert → Dy) => ((g p).mul a).add ((g q).mul b)
  ⟨f (·.x), f (·.y), f (·.z), f (·.w), f (·.s)⟩

/-- The part of a polygon where a linear form is not negative; new vertices are the exact intersections (DEDUCED, log 36). -/
def clipBy (f : CVert → Dy) (ps : List CVert) : List CVert :=
  (ps.zip (ps.tail ++ ps.take 1)).flatMap fun e =>
    let a := f e.1
    let b := f e.2
    let keep := if a.nonneg then [e.1] else []
    if a.nonneg = b.nonneg then keep
    else keep ++ [if a.nonneg then e.1.mix e.2 b.neg a else e.2.mix e.1 a.neg b]

/-- What a draw's state block gives the transform. -/
structure View where
  vx : Dy
  vy : Dy
  vw : Dy
  vh : Dy
  planes : List (Dy × Dy × Dy × Dy)
deriving DecidableEq, Repr

/-- Clip a triangle to the volume of R323. -/
def clipAll (v : View) (ps : List CVert) : List CVert :=
  let half := fun (a : Dy) => (⟨a.m, a.e - 1⟩ : Dy)
  let big : Dy := ⟨32768, 0⟩
  let wx := fun (p : CVert) => (v.vx.mul p.w).add ((p.x.add p.w).mul (half v.vw))
  let wy := fun (p : CVert) => (v.vy.mul p.w).add ((p.w.sub p.y).mul (half v.vh))
  let ps := clipBy (fun p => p.z) ps
  let ps := clipBy (fun p => p.w.sub p.z) ps
  let ps := clipBy (fun p => p.w.sub (p.s.mul ⟨1, -24⟩)) ps
  let ps := v.planes.foldl (fun ps g => clipBy (fun p => (((g.1.mul p.x).add (g.2.1.mul p.y)).add (g.2.2.1.mul p.z)).add (g.2.2.2.mul p.w)) ps) ps
  let ps := clipBy (fun p => (wx p).add (big.mul p.w)) ps
  let ps := clipBy (fun p => (big.mul p.w).sub (wx p)) ps
  let ps := clipBy (fun p => (wy p).add (big.mul p.w)) ps
  clipBy (fun p => (big.mul p.w).sub (wy p)) ps

/-- n / d rounded to the nearest integer, ties to even. -/
def divEven (n : Int) (d : Nat) : Int :=
  let q := n / (d : Int)
  let r := n % (d : Int)
  if 2 * r < d then q else if (d : Int) < 2 * r then q + 1 else if q % 2 = 0 then q else q + 1

/-- An exact value rounded to the nearest multiple of 1/256. -/
def toFix (v : Dy) : Int := if 0 ≤ v.e + 8 then v.m * 2 ^ (v.e + 8).toNat else divEven v.m (2 ^ (-(v.e + 8)).toNat)

/-- a / b rounded to FP32, for b > 0, by its bits. -/
def divFp (a b : Dy) : Nat := (Fmt.fp32.round .near (decide (a.m < 0)) (quotMag a.m.natAbs a.e b.m.natAbs b.e)).bits

/-- Window x, y in 1/256 pixel and z by its FP32 bits (R324). -/
def window3 (v : View) (p : CVert) : Int × Int × Nat :=
  let val := fun b => (Fmt.fp32.unpack b).dy
  let one : Dy := ⟨1, 0⟩
  let half := fun (a : Dy) => (⟨a.m, a.e - 1⟩ : Dy)
  let wx := v.vx.add (((val (divFp p.x p.w)).add one).mul (half v.vw))
  let wy := v.vy.add ((one.sub (val (divFp p.y p.w))).mul (half v.vh))
  (toFix wx, toFix wy, divFp p.z p.w)

/-! ### Rasterization (R325) -/

/-- E_ab(p). -/
def edgeE (a b p : Int × Int) : Int := (b.1 - a.1) * (p.2 - a.2) - (b.2 - a.2) * (p.1 - a.1)

/-- The vertex of a binned triangle. -/
def RTri.pt (t : RTri) (i : Nat) : Int × Int := (t.xs.getD i 0, t.ys.getD i 0)
/-- Twice the area, in 1/65536 pixel. -/
def RTri.area (t : RTri) : Int := edgeE (t.pt 0) (t.pt 1) (t.pt 2)

/-- The triangle that three window vertices give, in normalized order; none where it has no area or is culled. -/
def setupTri (draw prim cull : Nat) (frontCw : Bool) (a b c : Int × Int × Nat) : Option RTri × Bool :=
  let e := edgeE (a.1, a.2.1) (b.1, b.2.1) (c.1, c.2.1)
  if e = 0 then (none, false)
  else
    let front := decide (0 < e) == frontCw
    if (cull = 1 ∧ front = false) ∨ (cull = 2 ∧ front = true) then (none, true)
    else
      let l := if 0 < e then [a, b, c] else [a, c, b]
      (some ⟨draw, prim, l.map (·.1), l.map (·.2.1), l.map (·.2.2)⟩, true)

/-- The sample position in 1/16 pixel (Table 10.10). -/
def samplePos (msaa s : Nat) : Nat × Nat :=
  let l := if msaa = 1 then [(8, 8)] else if msaa = 2 then [(4, 4), (12, 12)] else if msaa = 4 then [(6, 2), (14, 6), (2, 10), (10, 14)]
    else [(9, 5), (7, 11), (13, 9), (5, 3), (3, 13), (1, 7), (11, 15), (15, 1)]
  l.getD s (8, 8)

/-- The sample point in 1/256 pixel. -/
def samplePt (msaa px py s : Nat) : Int × Int :=
  let q := samplePos msaa s
  ((256 * px + 16 * q.1 : Nat), (256 * py + 16 * q.2 : Nat))

/-- A point is inside one edge of a normalized triangle, by the top-left rule. -/
def insideEdge (a b p : Int × Int) : Bool :=
  let e := edgeE a b p
  decide (0 < e) || (decide (e = 0) && (decide (b.2 - a.2 < 0) || decide (b.2 = a.2 ∧ 0 < b.1 - a.1)))

/-- The triangle covers a point. -/
def RTri.covers (t : RTri) (p : Int × Int) : Bool :=
  insideEdge (t.pt 0) (t.pt 1) p && insideEdge (t.pt 1) (t.pt 2) p && insideEdge (t.pt 2) (t.pt 0) p

/-- The exact depth at a point, times the area. -/
def RTri.depthNum (t : RTri) (p : Int × Int) : Dy :=
  let z := fun i => (Fmt.fp32.unpack (t.zs.getD i 0)).dy
  let k := fun (n : Int) => (⟨n, 0⟩ : Dy)
  (((z 0).mul (k t.area)).add ((k (edgeE (t.pt 2) (t.pt 0) p)).mul ((z 1).sub (z 0)))).add ((k (edgeE (t.pt 0) (t.pt 1) p)).mul ((z 2).sub (z 0)))

/-- The depth code of a value num / den: FP32 bits, or a 24-bit code for D24S8. -/
def depthCode (d24 : Bool) (num : Dy) (den : Nat) : Nat :=
  if d24 then
    if num.m ≤ 0 then 0
    else
      let up := num.e.toNat
      let dn := (-num.e).toNat
      let n := num.m * 2 ^ up
      let m := den * 2 ^ dn
      if (m : Int) ≤ n then 2 ^ 24 - 1 else (divEven (n * (2 ^ 24 - 1)) m).toNat
  else if num.m = 0 then 0 else (Fmt.fp32.round .near (decide (num.m < 0)) (quotMag num.m.natAbs num.e den 0)).bits

/-! ### Tests (Table 10.8) -/

/-- A compare function, from whether incoming is less, equal or greater. -/
def passes (f : Nat) (lt eq gt : Bool) : Bool :=
  if f = 0 then false else if f = 1 then lt else if f = 2 then eq else if f = 3 then lt || eq else if f = 4 then gt
  else if f = 5 then !eq else if f = 6 then gt || eq else true

/-- The depth test. -/
def depthPass (d24 : Bool) (f inc stored : Nat) : Bool :=
  if d24 then passes f (decide (inc < stored)) (decide (inc = stored)) (decide (stored < inc))
  else passes f (fLt inc stored) (fEq inc stored) (fLt stored inc)

/-- A stencil operation on a stored value. -/
def stencilOp (op v ref : Nat) : Nat :=
  if op = 0 then v else if op = 1 then 0 else if op = 2 then ref else if op = 3 then min 255 (v + 1) else if op = 4 then v - 1
  else if op = 5 then 255 - v else if op = 6 then (v + 1) % 256 else (v + 255) % 256

/-! ### Surface formats (Table 10.5) -/

/-- Bytes per sample. -/
def fmtBytes (f : Nat) : Nat := if f = 3 then 8 else if f = 4 then 16 else if f = 0x20 then 8 else 4

/-- The sRGB curve of x = n / d in (0, 1) is at least k / 510: exact, by fifth and twelfth powers. -/
def srgbAtLeast (n d k : Nat) : Bool :=
  if 10000000 * n ≤ 31308 * d then decide (k * d * 100 ≤ 510 * 1292 * n)
  else
    let a := 1000 * k + 55 * 510
    decide ((a ^ 12) * d ^ 5 ≤ n ^ 5 * (510 * 1055) ^ 12)

/-- Encode a value in [0, 1] with the IEC 61966-2-1 curve, rounded to nearest, ties to even. -/
def srgbEncode (n d : Nat) : Nat :=
  let c := ((List.range 256).filter fun k => srgbAtLeast n d (2 * k)).length - 1
  if srgbAtLeast n d (2 * c + 1) then
    (if !srgbAtLeast n d (2 * c + 2) && decide (c % 2 = 0) && tie n d (2 * c + 1) then c else c + 1)
  else c
where
  /-- The curve meets k / 510 exactly. -/
  tie (n d k : Nat) : Bool :=
    if 10000000 * n ≤ 31308 * d then decide (k * d * 100 = 510 * 1292 * n)
    else decide ((1000 * k + 55 * 510) ^ 12 * d ^ 5 = n ^ 5 * (510 * 1055) ^ 12)

/-- The floor of a fifth root, found bit by bit. -/
def root5 (n : Nat) : Nat → Nat → Nat
  | 0, a => a
  | k + 1, a => root5 n k (if (a + 2 ^ k) ^ 5 ≤ n then a + 2 ^ k else a)

/-- Decode an sRGB code to FP32, rounded to nearest even. -/
def srgbDecode (c : Nat) : Nat :=
  if 100000 * c ≤ 4045 * 255 then (Fmt.fp32.round .near false (quotMag (c * 100) 0 (255 * 1292) 0)).bits
  else
    let n := 1000 * c + 55 * 255
    let d := 255 * 1055
    let m := 2 ^ 320 * (n ^ 12) / d ^ 12
    let r := root5 m 68 0
    (Fmt.fp32.round .near false ⟨r, -64, decide (r ^ 5 * d ^ 12 ≠ 2 ^ 320 * (n ^ 12))⟩).bits

/-- A channel stored as an unsigned code of maximum `mx`: clamped, NaN as 0, rounded to nearest even. -/
def unormCode (mx b : Nat) : Nat :=
  match Fmt.fp32.unpack b with
  | .nan _ => 0
  | .inf s => if s then 0 else mx
  | .fin s m e =>
    if s then 0
    else if 0 ≤ e then (if m = 0 then 0 else mx)
    else if 2 ^ (-e).toNat ≤ m then mx else (divEven (m * mx) (2 ^ (-e).toNat)).toNat

/-- A colour channel through the sRGB curve. -/
def srgbCode (b : Nat) : Nat :=
  match Fmt.fp32.unpack b with
  | .nan _ => 0
  | .inf s => if s then 0 else 255
  | .fin s m e => if s ∨ m = 0 then 0 else if 0 ≤ e ∨ 2 ^ (-e).toNat ≤ m then 255 else srgbEncode m (2 ^ (-e).toNat)

/-- The bytes of a colour sample from four FP32 channels. The first channel takes the lowest bits (PRESUMED, log 37). -/
def encodeColour (f : Nat) (c : List Nat) : List Byte :=
  let ch := fun i => c.getD i 0
  let w := fun (n bytes : Nat) => toBytes (BitVec.ofNat 128 n) bytes
  if f = 0 then w (unormCode 255 (ch 0) + 2 ^ 8 * unormCode 255 (ch 1) + 2 ^ 16 * unormCode 255 (ch 2) + 2 ^ 24 * unormCode 255 (ch 3)) 4
  else if f = 1 then w (srgbCode (ch 0) + 2 ^ 8 * srgbCode (ch 1) + 2 ^ 16 * srgbCode (ch 2) + 2 ^ 24 * unormCode 255 (ch 3)) 4
  else if f = 2 then w (unormCode 1023 (ch 0) + 2 ^ 10 * unormCode 1023 (ch 1) + 2 ^ 20 * unormCode 1023 (ch 2) + 2 ^ 30 * unormCode 3 (ch 3)) 4
  else if f = 3 then (List.range 4).flatMap fun i => w (Fmt.fp16.ofVal .near (Fmt.fp32.unpack (ch i)) false).bits 2
  else (List.range 4).flatMap fun i => w (ch i) 4

/-- The four FP32 channels of a colour sample. -/
def decodeColour (f : Nat) (bs : List Byte) : List Nat :=
  let n := bytesNat bs
  let un := fun v mx => (Fmt.fp32.round .near false (quotMag v 0 mx 0)).bits
  if f = 0 then (List.range 4).map fun i => un (n / 2 ^ (8 * i) % 256) 255
  else if f = 1 then (List.range 4).map fun i => if i < 3 then srgbDecode (n / 2 ^ (8 * i) % 256) else un (n / 2 ^ 24 % 256) 255
  else if f = 2 then (List.range 4).map fun i => if i < 3 then un (n / 2 ^ (10 * i) % 1024) 1023 else un (n / 2 ^ 30 % 4) 3
  else if f = 3 then (List.range 4).map fun i => (Fmt.fp32.ofVal .near (Fmt.fp16.unpack (n / 2 ^ (16 * i) % 65536)) false).bits
  else (List.range 4).map fun i => n / 2 ^ (32 * i) % 2 ^ 32

/-- The bytes of a cleared sample of surface `i` (Table 10.4; a visibility sample holds no draw). -/
def clearSample (i f : Nat) (v : List Byte) : List Byte :=
  if i = 1 then toBytes (0x0000FFFFFFFFFFFF : Word64) 8
  else if i = 0 then
    let z := num v 0 4
    let q := (Fmt.fp32.unpack z)
    if f = 0x11 then toBytes (BitVec.ofNat 32 ((match q with | .inf s => if s then 0 else 2 ^ 24 - 1 | _ => depthCode true q.dy 1) + 2 ^ 24 * num v 4 1)) 4
    else v.take 4
  else encodeColour f ((List.range 4).map fun k => num v (4 * k) 4)

/-! ### Blending (R329, Table 10.9) -/

/-- 1 - x. -/
def oneMinus (v : Val) : Val :=
  match v with
  | .nan s => .nan s
  | .inf s => .inf (!s)
  | .fin _ _ _ =>
    let r := (⟨1, 0⟩ : Dy).sub v.dy
    .fin (decide (r.m < 0)) r.m.natAbs r.e

/-- The factor of a code for channel `ch`. -/
def blendFactor (code ch : Nat) (s d k : List Val) : Val :=
  let g := fun (l : List Val) i => l.getD i (.fin false 0 0)
  let one : Val := .fin false 1 0
  if code = 0 then .fin false 0 0 else if code = 1 then one else if code = 2 then g s ch else if code = 3 then oneMinus (g s ch)
  else if code = 4 then g d ch else if code = 5 then oneMinus (g d ch) else if code = 6 then g s 3 else if code = 7 then oneMinus (g s 3)
  else if code = 8 then g d 3 else if code = 9 then oneMinus (g d 3) else if code = 10 then g k ch else if code = 11 then oneMinus (g k ch)
  else if code = 12 then g k 3 else if code = 13 then oneMinus (g k 3)
  else if ch = 3 then one else
    let a := g s 3
    let b := oneMinus (g d 3)
    if anyNan [a] then b else if anyNan [b] then a else if b.lt false a then b else a

/-- One channel blended: computed exactly and rounded once. -/
def blendChannel (op fs fd ch : Nat) (s d k : List Nat) : Nat :=
  let us := s.map Fmt.fp32.unpack
  let ud := d.map Fmt.fp32.unpack
  let uk := k.map Fmt.fp32.unpack
  let a := us.getD ch (.fin false 0 0)
  let b := ud.getD ch (.fin false 0 0)
  if op = 3 then fminBits (s.getD ch 0) (d.getD ch 0)
  else if op = 4 then fmaxBits (s.getD ch 0) (d.getD ch 0)
  else
    let f := blendFactor fs ch us ud uk
    let g := blendFactor fd ch us ud uk
    let p := a.mul f
    let q := b.mul g
    (Fmt.fp32.sum .near [if op = 2 then p.negate else p, if op = 1 then q.negate else q] (badMul a f || badMul b g) 0).bits

end Sys2Proof.Machine
end

