-- ==== Sys2Proof/Machine/Raster.lean ====
section
/-! DEFINITION. The Raster Front Ends: passes, surfaces, visibility, fragments, blending, bin memory, sharing, and the compositor output (10_raster.md). -/
namespace Sys2Proof.Machine

/-! ### Entries (R319, R320) -/

/-- A RASTER entry that completes as ILLEGAL at once, by its payload: reserved OPER or RFE, a reserved bit, or FIRST_DRAW or SMASK where it must be zero. -/
def rasterBad (p : BitVec 384) : Bool :=
  let w := fun k => (p.extractLsb' (64 * k) 64 : Word64)
  let op := fld (w 1) 7 0
  decide (5 < op ∨ (1 < fld (w 1) 15 8 ∧ fld (w 1) 15 8 ≠ 0xFF) ∨ fld (w 1) 31 17 ≠ 0 ∨ fld (w 1) 63 48 ≠ 0 ∨ (op ≠ 2 ∧ fld (w 1) 47 32 ≠ 0)
    ∨ fld (w 2) 63 8 ≠ 0 ∨ (op ≠ 0 ∧ op ≠ 4 ∧ fld (w 2) 7 0 ≠ 0) ∨ w 3 ≠ 0 ∨ w 4 ≠ 0 ∨ w 5 ≠ 0)

/-- The RFE a payload names: 0xFF takes the one with fewer queued entries, RFE 0 on a tie. -/
def Sled.rasterUnit (d : Sled) (p : BitVec 384) : Nat :=
  let f := fld (p.extractLsb' 64 64 : Word64) 15 8
  if f = 0xFF then (if (d.unitItems 4 1).length < (d.unitItems 4 0).length then 1 else 0) else f

/-- The named RFE is enabled and has a free slot (R320). -/
def Sled.rasterOk (d : Sled) (p : BitVec 384) : Bool :=
  let r := d.rasterUnit p
  bit (d.r32 .rfeCtl r) 0 && decide ((d.unitItems 4 r).length < 256)

/-- The ILLEGAL record of R340. -/
def Sled.rasterIllegal (x : Ctx) (d : Sled) (i : Item) (detail : Nat) : Sled :=
  let r : FaultRec := { code := 7, sev := 2, source := 4, unit := BitVec.ofNat 16 i.unit, queue := BitVec.ofNat 8 i.queue, entry := i.entry, detail0 := BitVec.ofNat 64 detail }
  d.stage x i.tenant r

/-- The entry is a compositor entry. -/
def Item.cmp (i : Item) : Bool := bit (i.word 1) 16
/-- The entry's operation. -/
def Item.oper (i : Item) : Nat := fld (i.word 1) 7 0

/-! ### Surfaces (Table 10.4, R332 to R334) -/

/-- A surface descriptor. -/
structure Surf where
  idx : Nat
  base : Nat
  pitch : Nat
  fmt : Nat
  sparse : Bool
  fast : Bool
  cflag : Nat
  resmap : Nat
  feedback : Nat
  clear : List Byte
deriving DecidableEq, Repr

/-- Surface `i` of a pass descriptor. -/
def surfOf (desc : List Byte) (i : Nat) : Surf :=
  let o := 0x40 + 64 * i
  ⟨i, num desc o 8, num desc (o + 8) 8, num desc (o + 0x10) 1, decide (num desc (o + 0x11) 1 % 2 = 1), decide (num desc (o + 0x11) 1 / 2 % 2 = 1),
    num desc (o + 0x18) 8, num desc (o + 0x20) 8, num desc (o + 0x28) 8, (desc.drop (o + 0x30)).take 16⟩

/-- What an operation works under: its time and place, tenant, RFE, entry, pass VA and size. -/
structure REnv where
  x : Ctx
  it : Item
  pass : Nat
  w : Nat
  h : Nat
  msaa : Nat

/-- The sled as an operation leaves it, the RESIDENCY bits met, and the first fault code. -/
structure RAcc where
  d : Sled
  resid : Nat
  fault : Byte

/-- Apply a change to the sled. -/
def RAcc.onD (a : RAcc) (f : Sled → Sled) : RAcc := { a with d := f a.d }

/-- Record a fetch or surface fault (R340). -/
def REnv.note (e : REnv) (a : RAcc) (draw : Nat) (f : TFault) : RAcc :=
  let r := { f.record 4 e.it.unit (BitVec.ofNat 8 e.it.queue) e.it.entry with detail0 := BitVec.ofNat 64 draw }
  { a with d := a.d.stage e.x e.it.tenant r, fault := if a.fault = 0 then BitVec.ofNat 8 f.code else a.fault }

/-- The RFE reads bytes for the tenant in user mode; an uncorrectable read fails without a fault code (log 38). -/
def REnv.read (e : REnv) (a : RAcc) (draw va n : Nat) : RAcc × Option (List Byte) :=
  let r := a.d.uRead e.x e.it.tenant false va n
  match r.2 with
  | .ok bs bad => ({ a with d := r.1 }, if bad.any id then none else some bs)
  | .fault f => (e.note { a with d := r.1 } draw f, none)

/-- The RFE writes bytes for the tenant in user mode. -/
def REnv.write (e : REnv) (a : RAcc) (draw va : Nat) (bs : List Byte) : RAcc :=
  let r := a.d.uWrite e.x e.it.tenant false va bs
  match r.2 with
  | none => { a with d := r.1 }
  | some f => e.note { a with d := r.1 } draw f

/-- Set bits of a byte in the tenant's memory. -/
def REnv.orByte (e : REnv) (a : RAcc) (draw va : Nat) (m : Byte) : RAcc :=
  let r := e.read a draw va 1
  match r.2 with
  | some bs => e.write r.1 draw va [(bs.headD 0) ||| m]
  | none => r.1

/-- Split an access of a surface at its 64 KiB pages: (offset, length). -/
def surfParts (off n : Nat) : List (Nat × Nat) := (pieces off n).map fun p => (p.1, p.2.2)

/-- The residency of a page of a sparse surface; a page that is not resident is noted (R333). -/
def REnv.resident (e : REnv) (a : RAcc) (draw : Nat) (s : Surf) (off : Nat) : RAcc × Bool :=
  if !s.sparse then (a, true)
  else
    let k := off / 65536
    let r := e.read a draw (s.resmap + k / 8) 1
    if bit ((r.2.getD [0]).headD 0) (k % 8) then (r.1, true)
    else
      let a := { r.1 with resid := r.1.resid ||| 2 ^ s.idx, d := r.1.d.bump32 .rfeResMiss e.it.unit }
      (if s.feedback = 0 then a else e.orByte a draw (s.feedback + k / 8) (BitVec.ofNat 8 (2 ^ (k % 8))), false)

/-- Read bytes of a surface: zeros where it is not resident. -/
def REnv.surfRead (e : REnv) (a : RAcc) (draw : Nat) (s : Surf) (off n : Nat) : RAcc × Option (List Byte) :=
  (surfParts off n).foldl (fun acc p =>
    match acc.2 with
    | none => acc
    | some bs =>
      let r := e.resident acc.1 draw s p.1
      if !r.2 then (r.1, some (bs ++ List.replicate p.2 0))
      else
        let q := e.read r.1 draw (s.base + p.1) p.2
        (q.1, q.2.map (bs ++ ·))) (a, some [])

/-- The tiles of a pass, in row-major order. -/
def REnv.tiles (e : REnv) : Nat × Nat := ((e.w + 31) / 32, (e.h + 31) / 32)
/-- The samples of a tile: (x, y, s), pixel rows first. -/
def REnv.samples (e : REnv) (tile : Nat) : List (Nat × Nat × Nat) :=
  let tx := tile % e.tiles.1 * 32
  let ty := tile / e.tiles.1 * 32
  (List.range (min 32 (e.h - ty))).flatMap fun y => (List.range (min 32 (e.w - tx))).flatMap fun x =>
    (List.range e.msaa).map fun s => (tx + x, ty + y, s)

/-- The offset of a sample (R321). -/
def REnv.offset (e : REnv) (s : Surf) (p : Nat × Nat × Nat) : Nat := p.2.1 * s.pitch + (p.1 * e.msaa + p.2.2) * fmtBytes s.fmt

/-- A tile's clear flag (R334). -/
def REnv.flag (e : REnv) (a : RAcc) (draw : Nat) (s : Surf) (tile : Nat) : RAcc × Bool :=
  if !s.fast then (a, false)
  else
    let r := e.read a draw (s.cflag + tile / 8) 1
    (r.1, bit ((r.2.getD [0]).headD 0) (tile % 8))

/-- Clear a tile's flag. -/
def REnv.unflag (e : REnv) (a : RAcc) (draw : Nat) (s : Surf) (tile : Nat) : RAcc :=
  let r := e.read a draw (s.cflag + tile / 8) 1
  match r.2 with
  | some bs => e.write r.1 draw (s.cflag + tile / 8) [(bs.headD 0) &&& ~~~(BitVec.ofNat 8 (2 ^ (tile % 8)))]
  | none => r.1

/-- Every sample of a tile as the RFE reads it, and whether the reads went well. A sample whose read faults is a free value. `draw` stands in the record of a fault. -/
def REnv.readTile (e : REnv) (a : RAcc) (draw : Nat) (s : Surf) (tile : Nat) : RAcc × List (List Byte) × Bool :=
  let f := e.flag a draw s tile
  if f.2 then (f.1, (e.samples tile).map fun _ => clearSample s.idx s.fmt s.clear, true)
  else
    (e.samples tile).foldl (fun acc p =>
      let r := if acc.2.2 then e.surfRead acc.1 draw s (e.offset s p) (fmtBytes s.fmt) else (acc.1, none)
      match r.2 with
      | some bs => (r.1, acc.2.1 ++ [bs], acc.2.2)
      | none =>
        let v := Config.freeWord e.x.sl r.1.d.freeCtr
        (r.1.onD Sled.stepFree, acc.2.1 ++ [(toBytes v 8 ++ toBytes v 8).take (fmtBytes s.fmt)], false)) (f.1, [], true)

/-- Write every sample of a tile and clear its flag. A fault discards the whole tile's writes to the surface (R340). -/
def REnv.writeTile (e : REnv) (a : RAcc) (draw : Nat) (s : Surf) (tile : Nat) (vals : List (List Byte)) : RAcc :=
  let todo := ((e.samples tile).zip vals).flatMap fun p =>
    (surfParts (e.offset s p.1) (fmtBytes s.fmt)).map fun q => (q.1, (p.2.drop (q.1 - e.offset s p.1)).take q.2)
  let c := todo.foldl (fun (acc : RAcc × List (Nat × List Byte)) q =>
    let r := e.resident acc.1 draw s q.1
    (r.1, if r.2 then acc.2 ++ [q] else acc.2)) (a, [])
  let t := c.1.d.translateList e.x e.it.tenant false .store (c.2.map fun q => (s.base + q.1, 0, q.2.length))
  match t.2.2 with
  | some f => e.note { c.1 with d := t.1 } draw f
  | none =>
    let a := c.2.foldl (fun a q => e.write a draw (s.base + q.1) q.2) { c.1 with d := t.1 }
    if s.fast then e.unflag a draw s tile else a

/-! ### The pass descriptor (Table 10.3, R340) -/

/-- A surface that is present has legal fields for its place; a reserved bit is zero in every surface. -/
def surfLegal (desc : List Byte) (i w msaa : Nat) : Bool :=
  let s := surfOf desc i
  let place := if i = 0 then s.fmt = 0x10 ∨ s.fmt = 0x11 else if i = 1 then s.fmt = 0x20 else s.fmt ≤ 4
  decide (num desc (0x40 + 64 * i + 0x11) 7 / 4 = 0) && (s.base = 0 ||
    decide place && decide (s.base % (if s.sparse then 65536 else 256) = 0 ∧ w * msaa * fmtBytes s.fmt ≤ s.pitch)
    && (!s.fast || decide (s.cflag % 8 = 0)) && (!s.sparse || decide (s.resmap % 8 = 0 ∧ i ≠ 1)))

/-- The surfaces an operation needs (log 39). -/
def needs (oper smask nrt : Nat) : List Nat :=
  if oper = 0 ∨ oper = 4 then (List.range 8).filter fun i => smask / 2 ^ i % 2 = 1
  else if oper = 1 then [0, 1] else if oper = 2 then [0] else if oper = 3 then (List.range nrt).map (· + 2) else [2]

/-- The descriptor is legal for an operation. -/
def passLegal (desc : List Byte) (oper smask : Nat) : Bool :=
  let w := num desc 0 2
  let h := num desc 2 2
  let v := num desc 4 4
  let msaa := v % 16
  let nrt := v / 16 % 8
  decide (1 ≤ w ∧ w ≤ 16384 ∧ 1 ≤ h ∧ h ≤ 16384 ∧ (msaa = 1 ∨ msaa = 2 ∨ msaa = 4 ∨ msaa = 8) ∧ nrt ≤ 4 ∧ v / 128 = 0)
    && decide (num desc 8 8 % 64 = 0 ∧ 1 ≤ num desc 0x10 2 ∧ num desc 0x12 6 = 0 ∧ num desc 0x18 8 % 65536 = 0 ∧ num desc 0x20 8 % 65536 = 0
      ∧ num desc 0x20 8 ≤ 2 ^ 34 ∧ num desc 0x38 8 = 0)
    && ((List.range 6).all fun i => surfLegal desc i w msaa)
    && ((needs oper smask nrt).all fun i => decide (i < 2 + nrt) && decide ((surfOf desc i).base ≠ 0))

/-! ### Draws (R322, Tables 10.6, 10.7) -/

/-- A draw record is legal. -/
def drawLegal (b : List Byte) : Bool :=
  decide (num b 0 8 % 16 = 0 ∧ num b 8 8 % 4 = 0 ∧ 1 ≤ num b 0x10 3 ∧ num b 0x13 1 ≤ 1 ∧ num b 0x18 8 % 64 = 0 ∧ num b 0x28 8 = 0 ∧ num b 0x30 8 = 0 ∧ num b 0x38 8 = 0)

/-- A state block is legal; `nrt` colour targets exist. A viewport or an enabled plane that is not finite is out of range. -/
def blockLegal (b : List Byte) (nrt : Nat) : Bool :=
  let v := num b 0 4
  let bl := num b 8 4
  let blend := v / 2 ^ 21 % 2 = 1
  let fin := fun o => (List.range 4).all fun k => fFinite (num b (o + 4 * k) 4)
  decide (v / 2 ^ 18 % 4 ≠ 3 ∧ v / 2 ^ 30 = 0 ∧ num b 7 1 = 0 ∧ bl / 2 ^ 26 = 0 ∧ num b 0x0C 4 = 0 ∧ num b 0x38 8 = 0) && zeros b 0xA0 96
    && (!decide blend || decide (v / 2 ^ 22 % 4 < nrt ∧ bl % 8 ≤ 4 ∧ bl / 2 ^ 3 % 16 ≤ 14 ∧ bl / 2 ^ 7 % 16 ≤ 14 ∧ bl / 2 ^ 11 % 8 ≤ 4
      ∧ bl / 2 ^ 14 % 16 ≤ 14 ∧ bl / 2 ^ 18 % 16 ≤ 14))
    && fin 0x20 && (List.range 6).all fun j => decide (v / 2 ^ (24 + j) % 2 = 0) || fin (0x40 + 16 * j)

/-- The draw is a blend draw. -/
def isBlend (b : List Byte) : Bool := decide (num b 0 4 / 2 ^ 21 % 2 = 1)

/-- Read draw record `n` and its state block; an illegal or unreadable one is recorded and skipped (R340). -/
def REnv.fetchDraw (e : REnv) (a : RAcc) (desc : List Byte) (n : Nat) : RAcc × Option (List Byte × List Byte) :=
  let ill := fun (a : RAcc) => a.onD fun d => d.rasterIllegal e.x e.it n
  let r := e.read a n (num desc 8 8 + 64 * n) 64
  match r.2 with
  | none => (r.1, none)
  | some b =>
    if !drawLegal b then (ill r.1, none)
    else
      let q := e.read r.1 n (num b 0x18 8) 256
      match q.2 with
      | none => (q.1, none)
      | some s => if blockLegal s (num desc 4 4 / 16 % 8) then (q.1, some (b, s)) else (ill q.1, none)

/-- What a state block gives the transform. -/
def viewOf (b : List Byte) : View :=
  let f := fun o => (Fmt.fp32.unpack (num b o 4)).dy
  { vx := f 0x20, vy := f 0x24, vw := f 0x28, vh := f 0x2C,
    planes := ((List.range 6).filter fun j => num b 0 4 / 2 ^ (24 + j) % 2 = 1).map fun j =>
      (f (0x40 + 16 * j), f (0x44 + 16 * j), f (0x48 + 16 * j), f (0x4C + 16 * j)) }

/-- The triangles a primitive puts in the bins (R323 to R325), and whether it counts as discarded. -/
def primTris (blk : List Byte) (draw prim : Nat) (vs : List (List Byte)) : List RTri × Bool :=
  let bits := fun (v : List Byte) k => num v (4 * k) 4
  if vs.any fun v => (List.range 4).any fun k => !fFinite (bits v k) then ([], true)
  else
    let f := fun v k => (Fmt.fp32.unpack (bits v k)).dy
    let v := viewOf blk
    let ps := (clipAll v (vs.map fun u => ⟨f u 0, f u 1, f u 2, f u 3, ⟨1, 0⟩⟩)).map (window3 v)
    let st := num blk 0 4
    match ps with
    | p0 :: rest =>
      let rs := (rest.zip rest.tail).map fun q => setupTri draw prim (st / 2 ^ 18 % 4) (decide (st / 2 ^ 20 % 2 = 1)) p0 q.1 q.2
      (rs.filterMap (·.1), rs.all fun r => !r.2)
    | [] => ([], true)

/-! ### Binning (R322, R330) -/

/-- Fetch the three vertices of a primitive and bin it; false where a fetch fails. -/
def REnv.prim (e : REnv) (a : RAcc) (p : RfeProg) (rec blk : List Byte) (idx : List Nat) : RAcc × RfeProg × Bool :=
  let r := idx.foldl (fun (acc : RAcc × Option (List (List Byte))) i =>
    match acc.2 with
    | none => acc
    | some l =>
      let q := e.read acc.1 p.draw (num rec 0 8 + (num rec 0x14 4 + i) % 2 ^ 32 * 16) 16
      (q.1, q.2.map fun b => l ++ [b])) (a, some [])
  match r.2 with
  | none => (r.1, p, false)
  | some vs =>
    let t := primTris blk p.draw p.prim vs
    let a := r.1.onD fun d =>
      let d := (d.w64 .rfePrims (d.r64 .rfePrims e.it.unit + 1) e.it.unit).tally e.it.tenant 16 1
      if t.2 then d.bump32 .rfeDiscard e.it.unit else d
    (a, { p with tris := p.tris ++ t.1, prim := p.prim + 1 }, true)

/-- Index `n` of a draw: itself, or entry n of the index buffer. -/
def REnv.index (e : REnv) (a : RAcc) (p : RfeProg) (rec : List Byte) (n : Nat) : RAcc × Option Nat :=
  if num rec 8 8 = 0 then (a, some n)
  else
    let r := e.read a p.draw (num rec 8 8 + 4 * n) 4
    (r.1, r.2.map bytesNat)

/-- The next draw. -/
def RfeProg.nextDraw (p : RfeProg) : RfeProg := { p with draw := p.draw + 1, pos := 0, win := [], prim := 0 }

/-- Bin primitives of the current draw until `last`, or until the fuel is spent; a failed fetch abandons the rest of the draw. -/
def REnv.chunk (e : REnv) (a : RAcc) (p : RfeProg) (rec blk : List Byte) (last : Nat) : Nat → RAcc × RfeProg
  | 0 => (a, p)
  | fuel + 1 =>
    let strip := decide (num rec 0x13 1 = 1)
    if num rec 0x10 3 ≤ p.prim then (a, p.nextDraw)
    else if last ≤ p.prim then (a, p)
    else
      let r := e.index a p rec p.pos
      match r.2 with
      | none => (r.1, p.nextDraw)
      | some i =>
        if strip && decide (num rec 8 8 ≠ 0 ∧ i = 0xFFFFFFFF) then e.chunk r.1 { p with pos := p.pos + 1, win := [] } rec blk last fuel
        else
          let w := p.win ++ [i]
          let p := { p with pos := p.pos + 1, win := w }
          if w.length < 3 then e.chunk r.1 p rec blk last fuel
          else
            let vs := if strip && decide (p.prim % 2 = 1) then [w.getD 1 0, w.getD 0 0, w.getD 2 0] else w
            let q := e.prim r.1 { p with win := if strip then w.drop 1 else [] } rec blk vs
            if q.2.2 then e.chunk q.1 q.2.1 rec blk last fuel else (q.1, q.2.1.nextDraw)

/-! ### Resolving tiles (R326, R336) -/

/-- The state block of a draw that has been binned. -/
def RfeProg.block (p : RfeProg) (draw : Nat) : List Byte := ((p.blocks.find? fun b => b.1 = draw).map (·.2)).getD []

/-- The tests and updates of one sample: whether it passes, and the depth and stencil word after (R326). -/
def testSample (b : List Byte) (d24 : Bool) (inc word : Nat) : Bool × Nat :=
  let v := num b 0 4
  let z := if d24 then word % 2 ^ 24 else word
  let st := word / 2 ^ 24
  let sref := num b 4 1
  let sread := num b 5 1
  let swrite := num b 6 1
  let sten := decide (v / 2 ^ 5 % 2 = 1) && d24
  let si := sref &&& sread
  let ss := st &&& sread
  let spass := !sten || passes (v / 2 ^ 6 % 8) (decide (si < ss)) (decide (si = ss)) (decide (ss < si))
  let zpass := decide (v / 2 ^ 3 % 2 = 0) || depthPass d24 (v % 8) inc z
  let op := if !spass then v / 2 ^ 9 % 8 else if !zpass then v / 2 ^ 12 % 8 else v / 2 ^ 15 % 8
  let st' := if sten then (stencilOp op st sref &&& swrite) ||| (st &&& (255 - swrite)) else st
  let z' := if spass && zpass && decide (v / 2 ^ 4 % 2 = 1) then inc else z
  (spass && zpass, if d24 then z' + 2 ^ 24 * st' else z')

/-- The triangle covers a sample, scissor included (Table 10.7). -/
def RfeProg.hits (p : RfeProg) (e : REnv) (t : RTri) (q : Nat × Nat × Nat) : Bool :=
  let b := p.block t.draw
  decide (num b 0x30 2 ≤ q.1 ∧ q.1 < num b 0x34 2 ∧ num b 0x32 2 ≤ q.2.1 ∧ q.2.1 < num b 0x36 2) && t.covers (samplePt e.msaa q.1 q.2.1 q.2.2)

/-- The depth code of a triangle at a sample. -/
def RTri.depthAt (t : RTri) (e : REnv) (d24 : Bool) (q : Nat × Nat × Nat) : Nat :=
  depthCode d24 (t.depthNum (samplePt e.msaa q.1 q.2.1 q.2.2)) t.area.natAbs

/-- One sample through the binned triangles: depth word and visibility sample after, and the tests made. -/
def RfeProg.visSample (p : RfeProg) (e : REnv) (d24 : Bool) (q : Nat × Nat × Nat) (z : Nat) (vis : List Byte) : Nat × List Byte × Nat :=
  p.tris.foldl (fun acc t =>
    if p.hits e t q then
      let r := testSample (p.block t.draw) d24 (t.depthAt e d24 q) acc.1
      (r.2, if r.1 then toBytes (BitVec.ofNat 64 (t.prim + 2 ^ 32 * t.draw)) 8 else acc.2.1, acc.2.2 + 1)
    else acc) (z, vis, 0)

/-- Count sample tests. -/
def REnv.tests (e : REnv) (a : RAcc) (n : Nat) : RAcc :=
  a.onD fun d => (d.w64 .rfeSamples (d.r64 .rfeSamples e.it.unit + BitVec.ofNat 64 n) e.it.unit).tally e.it.tenant 17 n

/-- The tiles of a pass by number. -/
def REnv.nTiles (e : REnv) : Nat := e.tiles.1 * e.tiles.2

/-- The first draw with a binned triangle that covers a sample of a tile; none where no triangle does. It stands in the record of a fault of the tile's surfaces (DESIGN CHOICE, log 128). -/
def RfeProg.tileDraw (p : RfeProg) (e : REnv) (tile : Nat) : Option Nat :=
  ((p.tris.filter fun t => (e.samples tile).any fun q => p.hits e t q).map (·.draw)).foldl (fun m k => some (min k (m.getD k))) none

/-- Resolve the binned triangles into one tile. -/
def REnv.resolveTile (e : REnv) (a : RAcc) (p : RfeProg) (tile : Nat) : RAcc :=
  let s0 := surfOf p.desc 0
  let s1 := surfOf p.desc 1
  let d24 := decide (s0.fmt = 0x11)
  match p.tileDraw e tile with
  | none => a
  | some k =>
    let qs := e.samples tile
    let z := e.readTile a k s0 tile
    let v := e.readTile z.1 k s1 tile
    let rs := (qs.zip (z.2.1.zip v.2.1)).map fun q => p.visSample e d24 q.1 (bytesNat q.2.1) q.2.2
    let a := e.tests v.1 (rs.foldl (fun n r => n + r.2.2) 0)
    let a := if z.2.2 then e.writeTile a k s0 tile (rs.map fun r => toBytes (BitVec.ofNat 32 r.1) 4) else a
    if v.2.2 then e.writeTile a k s1 tile (rs.map fun r => r.2.1) else a

/-- The visibility sample names a draw. -/
def visible (v : List Byte) : Bool := decide (num v 4 2 ≠ 0xFFFF)

/-- The end of VIS at one tile: its flags in the colour targets (R336); with the samples it adds to VISIBLE. -/
def REnv.colourTile (e : REnv) (a : RAcc) (p : RfeProg) (tile : Nat) : RAcc × Nat :=
  let nrt := num p.desc 4 4 / 16 % 8
  let v := e.readTile a 0 (surfOf p.desc 1) tile
  let n := v.2.1.countP visible
  ((List.range nrt).foldl (fun a k =>
    let s := surfOf p.desc (2 + k)
    if s.base = 0 then a
    else
      let f := e.flag a 0 s tile
      if !f.2 then f.1
      else if n = v.2.1.length then e.unflag f.1 0 s tile
      else e.writeTile f.1 0 s tile ((e.samples tile).map fun _ => clearSample s.idx s.fmt s.clear)) v.1, n)

/-- The status area that VIS writes. -/
def REnv.endVis (e : REnv) (a : RAcc) (p : RfeProg) : RAcc :=
  let a := e.write a 0 (e.pass + 0x1D8) (toBytes (BitVec.ofNat 64 (p.resid ||| a.resid)) 8)
  let a := e.write a 0 (e.pass + 0x1E0) (toBytes (BitVec.ofNat 64 p.seen) 8)
  e.write a 0 (e.pass + 0x1E8) (toBytes (BitVec.ofNat 64 p.flushes) 8)

/-! ### Fragments (R328) -/

/-- The fragment records of one tile. -/
def REnv.tileFrags (e : REnv) (a : RAcc) (p : RfeProg) (tile : Nat) : RAcc × List (List Byte) :=
  match p.tileDraw e tile with
  | none => (a, [])
  | some k0 =>
    let qs := e.samples tile
    let s0 := surfOf p.desc 0
    let d24 := decide (s0.fmt = 0x11)
    let z := e.readTile a k0 s0 tile
    let zs := qs.zip z.2.1
    let keys := (p.tris.map fun t => (t.draw, t.prim)).eraseDups
    let px := (qs.filter fun q => q.2.2 = 0)
    let out := keys.flatMap fun k => px.filterMap fun q =>
      let ts := p.tris.filter fun t => decide (t.draw = k.1 ∧ t.prim = k.2)
      let m := (zs.filter fun y => decide (y.1.1 = q.1 ∧ y.1.2.1 = q.2.1)).foldl (fun m y =>
        match ts.find? fun t => p.hits e t y.1 with
        | some t => if (testSample (p.block k.1) d24 (t.depthAt e d24 y.1) (bytesNat y.2)).1 then m + 2 ^ y.1.2.2 else m
        | none => m) 0
      if m = 0 then none
      else some (toBytes (BitVec.ofNat 32 k.2) 4 ++ toBytes (BitVec.ofNat 32 (k.1 + 65536 * m)) 4 ++ toBytes (BitVec.ofNat 32 (q.1 + 65536 * q.2.1)) 4
        ++ List.replicate 20 (0 : Byte))
    (e.tests z.1 (qs.foldl (fun n q => n + p.tris.countP fun t => p.hits e t q) 0), out)

/-- The draw a fragment record names. -/
def recDraw (r : List Byte) : Nat := num r 4 2
/-- How many records the tiles before `tile` have. -/
def RfeProg.firstFrag (p : RfeProg) (tile : Nat) : Nat := (p.frags.take tile).flatten.length

/-- Write the records of one tile and its entry of the tile index. -/
def REnv.writeFrags (e : REnv) (a : RAcc) (p : RfeProg) (tile : Nat) : RAcc :=
  let n := p.firstFrag tile
  let rs := p.frags.getD tile []
  let a := if rs.isEmpty then a else e.write a (recDraw (rs.headD [])) (num p.desc 0x18 8 + p.off.getD 0 + 32 * n) rs.flatten
  e.write a 0 (num p.desc 0x30 8 + 8 * tile) (toBytes (BitVec.ofNat 32 n) 4 ++ toBytes (BitVec.ofNat 32 rs.length) 4)

/-- The status area that FRAG writes. -/
def REnv.endFrag (e : REnv) (a : RAcc) (p : RfeProg) : RAcc :=
  let a := e.write a 0 (e.pass + 0x1C0) (toBytes (BitVec.ofNat 32 p.whole) 4)
  let a := e.write a 0 (e.pass + 0x1C8) (toBytes (BitVec.ofNat 64 (p.off.getD 0)) 8 ++ toBytes (BitVec.ofNat 64 p.frags.flatten.length) 8 ++ toBytes (BitVec.ofNat 64 (p.resid ||| a.resid)) 8)
  e.write a 0 (e.pass + 0x1E8) (toBytes (BitVec.ofNat 64 p.flushes) 8)

/-! ### CLEAR, RESOLVE, BLEND -/

/-- Set RESIDENCY bits in the status area. -/
def REnv.putResid (e : REnv) (a : RAcc) (resid : Nat) : RAcc := if resid = 0 then a else e.orByte a 0 (e.pass + 0x1D8) (BitVec.ofNat 8 resid)

/-- The surfaces an SMASK selects. -/
def selected (smask : Nat) : List Nat := (List.range 8).filter fun i => smask / 2 ^ i % 2 = 1

/-- One step of CLEAR (Table 10.2): a surface with FASTCLEAR whole, else one tile. `k` counts the tiles of the selected surfaces; the count after it is answered. -/
def REnv.clearStep (e : REnv) (a : RAcc) (desc : List Byte) (smask k : Nat) : RAcc × Nat :=
  let n := e.nTiles
  let i := (selected smask).getD (k / n) 0
  let s := surfOf desc i
  if s.fast then
    let a := e.write a 0 s.cflag (List.replicate (n / 8) 0xFF)
    (if n % 8 = 0 then a else e.orByte a 0 (s.cflag + n / 8) (BitVec.ofNat 8 (2 ^ (n % 8) - 1)), (k / n + 1) * n)
  else (e.writeTile a 0 s (k % n) ((e.samples (k % n)).map fun _ => clearSample i s.fmt s.clear), k + 1)

/-- One tile of RESOLVE (Table 10.2). -/
def REnv.resolveStep (e : REnv) (a : RAcc) (desc : List Byte) (smask k : Nat) : RAcc :=
  let n := e.nTiles
  let i := (selected smask).getD (k / n) 0
  let s := surfOf desc i
  let f := e.flag a 0 s (k % n)
  if f.2 then e.writeTile f.1 0 s (k % n) ((e.samples (k % n)).map fun _ => clearSample i s.fmt s.clear) else f.1

/-- A colour sample after the records that touch it, in order. -/
def blendSample (fmt : Nat) (old : List Byte) (rs : List (List Byte × List Byte)) : List Byte :=
  rs.foldl (fun old r =>
    let v := num r.2 8 4
    let d := decodeColour fmt old
    let s := (List.range 4).map fun k => num r.1 (0x10 + 4 * k) 4
    let k := (List.range 4).map fun k => num r.2 (0x10 + 4 * k) 4
    let new := (List.range 4).map fun ch =>
      if ch < 3 then blendChannel (v % 8) (v / 2 ^ 3 % 16) (v / 2 ^ 7 % 16) ch s d k else blendChannel (v / 2 ^ 11 % 8) (v / 2 ^ 14 % 16) (v / 2 ^ 18 % 16) ch s d k
    keepMask fmt (v / 2 ^ 22 % 16) old (encodeColour fmt new)) old
where
  /-- Channels whose WMASK bit is 0 keep their stored value. -/
  keepMask (fmt m : Nat) (old new : List Byte) : List Byte :=
    if fmt = 2 then
      let a := bytesNat old
      let b := bytesNat new
      let f := fun i lo n => (if m / 2 ^ i % 2 = 1 then b else a) / 2 ^ lo % 2 ^ n * 2 ^ lo
      toBytes (BitVec.ofNat 32 (f 0 0 10 + f 1 10 10 + f 2 20 10 + f 3 30 2)) 4
    else
      let n := fmtBytes fmt / 4
      (List.range (fmtBytes fmt)).map fun j => if m / 2 ^ (j / n) % 2 = 1 then new.getD j 0 else old.getD j 0

/-- One tile of BLEND (R329): its records in TILEIDX order, each with its draw's state block. `off` is where record 0 lies. -/
def REnv.blendTile (e : REnv) (a : RAcc) (desc : List Byte) (off tile : Nat) : RAcc :=
  let ix := e.read a 0 (num desc 0x30 8 + 8 * tile) 8
  match ix.2 with
  | none => ix.1
  | some ib =>
    let r := e.read ix.1 0 (num desc 0x18 8 + off + 32 * num ib 0 4) (32 * num ib 4 4)
    match r.2 with
    | none => r.1
    | some rb =>
      let recs := (List.range (num ib 4 4)).map fun i => (rb.drop (32 * i)).take 32
      let w := recs.foldl (fun (acc : RAcc × List (List Byte × List Byte)) rec =>
        if num rec 7 1 % 2 = 1 then acc
        else
          let q := e.fetchDraw acc.1 desc (recDraw rec)
          match q.2 with
          | some b => (q.1, acc.2 ++ [(rec, b.2)])
          | none => (q.1, acc.2)) (r.1, [])
      (List.range (num desc 4 4 / 16 % 8)).foldl (fun a rt =>
        let mine := w.2.filter fun p => decide (num p.2 0 4 / 2 ^ 22 % 4 = rt) && isBlend p.2
        match mine with
        | [] => a
        | m :: _ =>
          let s := surfOf desc (2 + rt)
          let c := e.readTile a (recDraw m.1) s tile
          if !c.2.2 then c.1
          else
            e.writeTile c.1 (recDraw m.1) s tile (((e.samples tile).zip c.2.1).map fun q =>
              blendSample s.fmt q.2 (mine.filter fun p => decide (num p.1 8 2 = q.1.1 ∧ num p.1 10 2 = q.1.2.1 ∧ num p.1 6 1 / 2 ^ q.1.2.2 % 2 = 1)))) w.1

/-! ### Which entry runs (R343) -/

/-- A Raster Front End. -/
def Sled.rfe (d : Sled) (r : Nat) : Rfe := mget d.rfes r
/-- Change a Raster Front End. -/
def Sled.onRfe (d : Sled) (r : Nat) (f : Rfe → Rfe) : Sled := { d with rfes := mmod d.rfes r f }
/-- The progress of an entry that has started. -/
def Sled.prog (d : Sled) (r id : Nat) : Option RfeProg := (d.rfe r).progs.find? fun p => decide (p.item = id)
/-- Store an entry's progress. -/
def Sled.setProg (d : Sled) (r : Nat) (p : RfeProg) : Sled :=
  d.onRfe r fun f => { f with progs := (f.progs.filter fun q => decide (q.item ≠ p.item)) ++ [p] }

/-- The work window of the tick, in ns (R37). -/
def Sled.workLen (d : Sled) : Nat := (d.r32 .belTickLen).toNat - (d.r32 .belSettle).toNat
/-- A tenant's share of one RFE, in ns x 1,000 (R337). -/
def Sled.rfeShare (d : Sled) (t : TenantId) : Nat := fld (d.ten t).allot 25 16 * d.workLen

/-- The entries the RFE may take: started and not waiting, or the oldest of its tenant that has not started (R320). -/
def Sled.rfeReady (d : Sled) (r : Nat) : List Item :=
  let all := d.unitItems 4 r
  all.filter fun i =>
    d.mayRun i.id && !d.fenced i.tenant && match d.prog r i.id with
      | some p => !p.waiting || p.answer.isSome
      | none => all.all fun j => decide (j.tenant ≠ i.tenant ∨ i.id ≤ j.id) || (d.prog r j.id).isSome

/-- The entry the RFE runs next (R343). -/
def Sled.rfeNext (d : Sled) (r : Nat) : Option Item :=
  let l := d.rfeReady r
  match l.find? Item.cmp with
  | some i => some i
  | none =>
    let time := fun (i : Item) => 1000 * (d.r32 .rfeTime r i.tenant).toNat
    let share := fun (i : Item) => d.rfeShare i.tenant
    let rank := fun (i : Item) => if share i = 0 then 2 else if time i < share i then 0 else 1
    let better := fun (a b : Item) =>
      decide (rank a < rank b) || (decide (rank a = rank b) && (decide (time a * share b < time b * share a)
        || (decide (time a * share b = time b * share a) && decide (a.tenant < b.tenant))))
    l.foldl (fun b i => match b with
      | none => some i
      | some o => if better i o then some i else some o) none

/-- The time of the work window that the running entry of a tenant has had since it was last added to RFE_TIME (R337). -/
def Sled.rfeTimeNow (x : Ctx) (d : Sled) (r : Nat) (t : TenantId) : Nat :=
  match (d.rfe r).cur.bind d.item with
  | none => 0
  | some i => if d.bell.work ∧ i.tenant = t then x.now - (d.rfe r).since else 0

/-- Add the time the running entry has had to its tenant's RFE_TIME (R337). -/
def Sled.rfeCharge (x : Ctx) (d : Sled) (r : Nat) : Sled :=
  match (d.rfe r).cur.bind d.item with
  | none => d
  | some i => (d.bump32 .rfeTime r i.tenant (d.rfeTimeNow x r i.tenant)).onRfe r fun f => { f with since := x.now }

/-- The running entry gives the RFE up. -/
def Sled.rfeLeave (x : Ctx) (d : Sled) (r : Nat) : Sled := (d.rfeCharge x r).onRfe r fun f => { f with cur := none }

/-- An entry ends. -/
def Sled.rfeEnd (x : Ctx) (d : Sled) (r id : Nat) (status fault : Byte) : Sled :=
  ((d.rfeLeave x r).onRfe r fun f => { f with progs := f.progs.filter fun p => decide (p.item ≠ id) }).finish id status fault

/-- The environment of an entry with a descriptor. -/
def rEnv (x : Ctx) (i : Item) (desc : List Byte) : REnv := ⟨x, i, (i.word 0).toNat, num desc 0 2, num desc 2 2, num desc 4 4 % 16⟩

/-- A started entry that is taken again reads BIN_MAPPED afresh (R330). -/
def Sled.rfeResume (x : Ctx) (d : Sled) (r : Nat) (i : Item) : Sled :=
  match d.prog r i.id with
  | none => d
  | some p =>
    if i.oper ≠ 1 ∧ i.oper ≠ 2 then d
    else
      let e := rEnv x i p.desc
      let q := e.read ⟨d, 0, p.fault⟩ 0 (e.pass + 0x28) 8
      q.1.d.setProg r { p with fault := q.1.fault, desc := match q.2 with | some bs => p.desc.take 0x28 ++ bs ++ p.desc.drop 0x30 | none => p.desc }

/-- Take the next entry, if its operation is `oper` and none runs. -/
def Sled.rfeTake (x : Ctx) (d : Sled) (r oper : Nat) : Sled :=
  if (d.rfe r).cur.isSome then d
  else match d.rfeNext r with
    | some i => if i.oper = oper then ((d.onRfe r fun f => { f with cur := some i.id, since := x.now }).onItem i.id fun j => { j with st := .running }).rfeResume x r i else d
    | none => d

/-- Start an entry: read and check its descriptor, and clear the status fields its operation writes (R321, R340). -/
def Sled.rfeStart (x : Ctx) (d : Sled) (r : Nat) (i : Item) : Sled :=
  let pass := (i.word 0).toNat
  let q := d.uRead x i.tenant false pass 448
  let ill := fun (d : Sled) => (d.rasterIllegal x i 0).rfeEnd x r i.id 3 7
  match q.2 with
  | .fault _ => ill q.1
  | .ok bs bad =>
    if bad.any id || decide (pass % 512 ≠ 0) || !passLegal bs i.oper (fld (i.word 2) 7 0) || ((i.cmp || decide (i.oper = 5)) && decide (q.1.compHolder ≠ some i.tenant)) then ill q.1
    else
      let e := rEnv x i bs
      let a : RAcc := ⟨q.1, 0, 0⟩
      let z := fun n => List.replicate n (0 : Byte)
      let a := if i.oper = 1 then e.write a 0 (pass + 0x1D8) (z 24) else if i.oper = 2 then e.write (e.write a 0 (pass + 0x1C0) (z 4)) 0 (pass + 0x1C8) (z 24) else a
      let a := if i.oper = 2 then e.write a 0 (pass + 0x1E8) (z 8) else a
      a.d.setProg r { item := i.id, desc := bs, fault := a.fault, draw := if i.oper = 2 then fld (i.word 1) 47 32 else 0, whole := fld (i.word 1) 47 32 }

/-- The running entry asks for bin memory (R330). -/
def Sled.rfeGrow (x : Ctx) (d : Sled) (r : Nat) (i : Item) (p : RfeProg) (pages : Nat) : Sled :=
  let t := i.tenant
  let d := (d.w32 .rfeGrowNeed (BitVec.ofNat 32 (max 1 pages)) t r).setRegBit .rfeGrowCtl 2 true t r
  let h := d.r32 .rfeGrowHandle t r
  let d := if h = 0 then d else d.event x t 5 h
  let grow : FaultRec := { code := 9, sev := 0, source := 4, unit := BitVec.ofNat 16 r, queue := BitVec.ofNat 8 i.queue, entry := i.entry, addr := BitVec.ofNat 64 (num p.desc 0x18 8 + num p.desc 0x28 8), detail0 := i.word 0 }
  ((d.stage x t grow).setProg r { p with waiting := true, answer := none }).rfeLeave x r

/-- Bin memory in force: up to the smaller of BIN_MAPPED and BIN_SIZE (R330). -/
def RfeProg.room (p : RfeProg) : Nat := min (num p.desc 0x28 8) (num p.desc 0x20 8)
/-- The 64 KiB pages missing for `n` bytes. -/
def RfeProg.missing (p : RfeProg) (n : Nat) : Nat := (n - p.room + 65535) / 65536

/-- Bin the next chunk of a draw, or pause for bin memory (R330, R331). How many bytes of bin memory a chunk takes is a free value: its format is private. -/
def Sled.binChunk (x : Ctx) (a : RAcc) (r : Nat) (i : Item) (p : RfeProg) (frag : Bool) (rec blk : List Byte) : Sled :=
  let e := rEnv x i p.desc
  let need := p.need.getD (Config.freeNat e.x.sl a.d.freeCtr)
  let a := if p.need.isNone then a.onD Sled.stepFree else a
  let full := decide (num p.desc 0x20 8 < p.used + need)
  let p := { p with waiting := false, need := some need, fault := a.fault, resid := p.resid ||| a.resid, blocks := if p.blocks.any fun b => b.1 = p.draw then p.blocks else p.blocks ++ [(p.draw, blk)] }
  let flush := fun (p : RfeProg) =>
    let p := { p with flushes := p.flushes + 1, answer := none, tile := 0 }
    ((a.d.bump32 .rfeFlushes r).tally i.tenant 9 (8 * p.used)).setProg r
      (if frag then { p with phase := .list, tris := p.tris.filter fun t => decide (t.draw < p.whole) } else { p with phase := .flush })
  if p.answer = some true ∧ (!frag ∨ p.listed) then flush p
  else if p.used + need ≤ p.room ∨ (full ∧ !frag ∧ p.used = 0) then
    let c := e.chunk { a with resid := 0 } p rec blk (4096 * (p.prim / 4096 + 1)) 65536
    let past := decide (c.2.draw ≠ p.draw)
    (c.1.d.tally i.tenant 9 (8 * need)).setProg r
      { c.2 with used := p.used + need, need := none, answer := none, fault := c.1.fault, resid := p.resid ||| c.1.resid, whole := if past then c.2.draw else p.whole, listed := p.listed || past }
  else if full ∧ (!frag ∨ p.listed) then flush p
  else a.d.rfeGrow x r i p (p.missing (p.used + need))

/-- One step of VIS (`frag` false) or FRAG in its binning: the next chunk, a draw that is skipped, or the end of the draws (R326, R328). -/
def Sled.binStep (x : Ctx) (d : Sled) (r : Nat) (i : Item) (p : RfeProg) (frag : Bool) : Sled :=
  let e := rEnv x i p.desc
  let a : RAcc := ⟨d, 0, p.fault⟩
  let skip := fun (a : RAcc) => a.d.setProg r { p.nextDraw with whole := p.draw + 1, fault := a.fault, resid := p.resid ||| a.resid }
  if num p.desc 0x10 2 ≤ p.draw then
    (d.tally i.tenant 9 (8 * p.used)).setProg r { p with phase := if frag then .list else .last, tile := 0, whole := max p.whole (num p.desc 0x10 2) }
  else
    let q := e.fetchDraw a p.desc p.draw
    match q.2 with
    | none => skip q.1
    | some (rec, blk) => if isBlend blk ≠ frag then skip q.1 else Sled.binChunk x q.1 r i p frag rec blk

/-- How many draws, from the first, can be listed with their records in `room` bytes: the first draw whose records do not fit (R331). -/
def RfeProg.fits (p : RfeProg) (room : Nat) : Nat :=
  (List.range (p.whole + 1)).foldl (fun m n => if 32 * (p.frags.flatten.countP fun r => decide (recDraw r < n)) ≤ room then n else m) 0

/-- The records of every tile are listed: choose where they lie, or pause for bin memory, which they share (R328, R330, R331). Where record 0 lies is a free value: the format of bin
memory is private. On FLUSH, and when BIN_SIZE is reached, the entry keeps the draws whose records fit. -/
def Sled.placeFrags (x : Ctx) (d : Sled) (r : Nat) (i : Item) (p : RfeProg) : Sled :=
  let bytes := 32 * p.frags.flatten.length
  let full := decide (num p.desc 0x20 8 < bytes)
  let n := p.fits p.room
  let place := fun (d : Sled) (p : RfeProg) =>
    d.stepFree.setProg r { p with phase := .write, tile := 0, waiting := false, answer := none, off := some (Config.freeNat x.sl d.freeCtr % (p.room - 32 * p.frags.flatten.length + 1)) }
  if bytes ≤ p.room then place d p
  else if (p.answer = some true ∨ full) ∧ (p.frags.flatten.any fun q => decide (recDraw q < n)) then
    place (d.bump32 .rfeFlushes r) { p with flushes := p.flushes + 1, whole := n, frags := p.frags.map fun l => l.filter fun q => decide (recDraw q < n) }
  else d.rfeGrow x r i { p with waiting := false } (p.missing bytes)

/-- One step of VIS or FRAG: a chunk, a tile, or a pause for bin memory. -/
def Sled.visStep (x : Ctx) (d : Sled) (r : Nat) (i : Item) (p : RfeProg) (frag : Bool) : Sled :=
  let e := rEnv x i p.desc
  let a : RAcc := ⟨d, 0, p.fault⟩
  let keep := fun (a : RAcc) (p : RfeProg) => a.d.setProg r { p with fault := a.fault, resid := p.resid ||| a.resid }
  let more := decide (p.tile + 1 < e.nTiles)
  match p.phase with
  | .bin => d.binStep x r i p frag
  | .flush => keep (e.resolveTile a p p.tile) (if more then { p with tile := p.tile + 1 } else { p with tile := 0, phase := .bin, tris := [], used := 0 })
  | .last => keep (e.resolveTile a p p.tile) (if more then { p with tile := p.tile + 1 } else { p with tile := 0, phase := .colour })
  | .colour =>
    let q := e.colourTile a p p.tile
    let p := { p with seen := p.seen + q.2, tile := p.tile + 1 }
    if more then keep q.1 p else (let b := e.endVis q.1 p; b.d.rfeEnd x r i.id 0 b.fault)
  | .list =>
    if p.tile < e.nTiles then
      let q := e.tileFrags a p p.tile
      keep q.1 { p with frags := p.frags ++ [q.2], tile := p.tile + 1 }
    else d.placeFrags x r i p
  | .write =>
    let b := e.writeFrags a p p.tile
    if more then keep b { p with tile := p.tile + 1 } else (let b := e.endFrag b p; b.d.rfeEnd x r i.id 0 b.fault)

/-- One step of CLEAR, RESOLVE or BLEND: one tile, or one surface with FASTCLEAR. -/
def Sled.tileStep (x : Ctx) (d : Sled) (r : Nat) (i : Item) (p : RfeProg) (oper : Nat) : Sled :=
  let e := rEnv x i p.desc
  let a : RAcc := ⟨d, 0, p.fault⟩
  let smask := fld (i.word 2) 7 0
  let stop := fun (a : RAcc) => (let b := e.putResid a (p.resid ||| a.resid); b.d.rfeEnd x r i.id 0 b.fault)
  let go := fun (a : RAcc) (p : RfeProg) (n last : Nat) =>
    if last ≤ n then stop a else a.d.setProg r { p with tile := n, fault := a.fault, resid := p.resid ||| a.resid }
  if oper = 3 then
    match p.off with
    | some o => go (e.blendTile a p.desc o p.tile) p (p.tile + 1) e.nTiles
    | none =>
      let q := e.read a 0 (e.pass + 0x1C8) 8
      match q.2 with
      | none => stop q.1
      | some b => go q.1 { p with off := some (bytesNat b) } 0 e.nTiles
  else
    let last := (selected smask).length * e.nTiles
    if last ≤ p.tile then stop a
    else if oper = 0 then (let q := e.clearStep a p.desc smask p.tile; go q.1 p q.2 last)
    else go (e.resolveStep a p.desc smask p.tile) p (p.tile + 1) last

/-- One step of the running entry when its operation is `oper`, taking the next entry first where none runs. A step is one chunk or one tile, at whose boundary an entry may
pause (R341, R343; log 40). -/
def Sled.rasterStep (x : Ctx) (d : Sled) (r oper : Nat) : Sled :=
  let d := d.rfeTake x r oper
  match (d.rfe r).cur.bind d.item with
  | none => d
  | some i =>
    if i.oper ≠ oper ∨ !d.mayRun i.id then d
    else
      let d := if (d.prog r i.id).isSome then d else d.rfeStart x r i
      match d.prog r i.id with
      | none => d
      | some p => if oper = 1 ∨ oper = 2 then d.visStep x r i p (decide (oper = 2)) else d.tileStep x r i p oper

def execClear (sl : SledId) (r : DieId) (s : State) : Host.Outcome State Fault Refusal := .next (s.onSled sl fun x d => d.rasterStep x r 0)
def execVis (sl : SledId) (r : DieId) (s : State) : Host.Outcome State Fault Refusal := .next (s.onSled sl fun x d => d.rasterStep x r 1)
def execFrag (sl : SledId) (r : DieId) (s : State) : Host.Outcome State Fault Refusal := .next (s.onSled sl fun x d => d.rasterStep x r 2)
def execBlend (sl : SledId) (r : DieId) (s : State) : Host.Outcome State Fault Refusal := .next (s.onSled sl fun x d => d.rasterStep x r 3)
def execResolve (sl : SledId) (r : DieId) (s : State) : Host.Outcome State Fault Refusal := .next (s.onSled sl fun x d => d.rasterStep x r 4)

/-! ### The compositor (R344 to R347, R508) -/

/-- The active Rack Factor: the one whose TWN_RK_ROLE.ACTIVE is set, A where neither is. -/
def State.activeRf (s : State) : RfId := if !bit ((s.rf 0).r32 .twnRkRole) 1 && bit ((s.rf 1).r32 .twnRkRole) 1 then 1 else 0

/-- PRESENT: hands colour target 0 over when it has the port's raster (R347). -/
def Sled.doPresent (x : Ctx) (d : Sled) (r : Nat) (raster : Word32) : Sled :=
  let d := d.rfeTake x r 5
  match (d.rfe r).cur.bind d.item with
  | none => d
  | some i =>
    if i.oper ≠ 5 ∨ !d.mayRun i.id then d
    else
      let d := if (d.prog r i.id).isSome then d else d.rfeStart x r i
      match d.prog r i.id with
      | none => d
      | some p =>
        let s := surfOf p.desc 2
        if (s.fmt = 2 ∨ s.fmt = 3) ∧ num p.desc 4 4 % 16 = 1 ∧ num p.desc 0 2 = fld raster 15 0 ∧ num p.desc 2 2 = fld raster 31 16 then
          { d with compositor := { d.compositor with presented := some ⟨BitVec.ofNat 64 s.base, s.fmt, s.pitch⟩ } }.rfeEnd x r i.id 0 0
        else (d.rasterIllegal x i 0).rfeEnd x r i.id 3 7

def execPresent (sl : SledId) (r : DieId) (s : State) : Host.Outcome State Fault Refusal :=
  let port := fld ((s.sled sl).r32 .rfeCmpCtl) 2 1
  .next (s.onSled sl fun x d => d.doPresent x r ((s.rf s.activeRf).r32 .rfeVidRaster port))

/-- An answer to a grow: GO, or FLUSH; ignored while WAIT is clear (R331). -/
def Sled.growAnswer (d : Sled) (t : TenantId) (r : Nat) (flush : Bool) : Sled :=
  if !bit (d.r32 .rfeGrowCtl t r) 2 then d
  else
    let mine := fun (p : RfeProg) => p.waiting && decide (((d.item p.item).map (·.tenant)) = some t)
    (d.setRegBit .rfeGrowCtl 2 false t r).onRfe r fun f => { f with progs := f.progs.map fun p => if mine p then { p with answer := some flush } else p }

def execRfeGrowGo (_who : Requester) (sl : SledId) (t : TenantId) (r : DieId) (s : State) : Host.Outcome State Fault Refusal :=
  .next (s.onSled sl fun _ d => d.growAnswer t r false)
def execRfeGrowFlush (_who : Requester) (sl : SledId) (t : TenantId) (r : DieId) (s : State) : Host.Outcome State Fault Refusal :=
  .next (s.onSled sl fun _ d => d.growAnswer t r true)

/-- Discard the progress of one entry (R341). -/
def Sled.dropProg (x : Ctx) (d : Sled) (id : Nat) : Sled :=
  (List.range 2).foldl (fun (d : Sled) r =>
    let d := if (d.rfe r).cur = some id then d.rfeLeave x r else d
    d.onRfe r fun f => { f with progs := f.progs.filter fun p => decide (p.item ≠ id) }) d

/-- RFE_CMP_PREEMPT: a compositor entry that may run pauses the entry of another tenant (R343). -/
def Sled.cmpPreempt (x : Ctx) (d : Sled) (r : Nat) : Sled :=
  match (d.rfe r).cur.bind d.item with
  | none => d
  | some i =>
    if (d.rfeReady r).any fun j => j.cmp && decide (j.tenant ≠ i.tenant) then (d.rfeLeave x r).bump32 .rfePreempts r else d

def execRfeCmpPreempt (sl : SledId) (r : DieId) (s : State) : Host.Outcome State Fault Refusal :=
  .next (s.onSled sl fun x d => d.cmpPreempt x r)

/-- A write to RFE_CMP_CTL. One that names a tenant in Mirror mode or not enabled is refused, and a grant of a port not bound to this sled is (R344, R508). -/
def State.cmpCtlWrite (s : State) (sl : SledId) (v : Word32) : State :=
  let d := s.sled sl
  let v := v &&& BitVec.ofNat 32 (regInfo .rfeCmpCtl).rw
  let t := tenantOf (fld v 29 24)
  let vid := (s.rf s.activeRf).r32 .rfeVidCtl (fld v 2 1)
  if d.mirror t || !d.active t || (bit v 0 && (!bit vid 1 || decide (fld vid 11 8 ≠ sl.val))) then s.setSled sl (d.setRegBit .rfeCmpStatus 0 true)
  else
    let fresh := !(bit v 0 && bit (d.r32 .rfeCmpCtl) 0 && decide (d.r32 .rfeCmpCtl = v))
    let d := (d.w32 .rfeCmpCtl v).setRegBit .rfeCmpStatus 0 false
    s.setSled sl (if fresh then { d.setRegBit .rfeCmpStatus 1 false with compositor := { d.compositor with presented := none, out := none } } else d)

def execRfeCmpCtlWrite (_who : Requester) (sl : SledId) (v : Word32) (s : State) : Host.Outcome State Fault Refusal := .next (s.cmpCtlWrite sl v)

/-- A write to RFE_CMP_STRIDE (R346); it takes effect from the next boundary. -/
def Sled.strideWrite (d : Sled) (v : Word32) : Sled :=
  if fld v 15 0 = 0 ∨ fld v 15 0 ≤ fld v 31 16 then d.setRegBit .rfeCmpStatus 0 true else (d.w32 .rfeCmpStride v).setRegBit .rfeCmpStatus 0 false

def execRfeCmpStrideWrite (_who : Requester) (sl : SledId) (v : Word32) (s : State) : Host.Outcome State Fault Refusal :=
  .next (s.onSled sl fun _ d => d.strideWrite v)

/-- The boundary just reached is a presentation boundary that has not been taken yet: its count meets STRIDE and PHASE (R345). -/
def Sled.presentDue (d : Sled) : Bool :=
  let st := d.compositor.stride
  d.bell.running && decide (d.count.toNat % (fld st 15 0) = fld st 31 16) && !decide (d.compositor.done = some d.count)

/-- A presentation boundary (R345): the output takes the surface presented, or repeats its own and is late. -/
def Sled.presentation (x : Ctx) (d : Sled) : Sled :=
  let n := d.count
  if !d.presentDue then d
  else if !bit (d.r32 .rfeCmpCtl) 0 then { d with compositor := { d.compositor with done := some n, out := none } }
  else
    match d.compositor.presented with
    | some v => { (d.w64 .rfeCmpSurf v.va).setRegBit .rfeCmpStatus 1 true with compositor := { d.compositor with presented := none, out := some v, done := some n } }
    | none =>
      let d := { d with compositor := { d.compositor with done := some n } }
      if !bit (d.r32 .rfeCmpStatus) 1 then d
      else
        let late : FaultRec := { code := 8, sev := 1, source := 4, unit := BitVec.ofNat 16 (fld (d.r32 .rfeCmpCtl) 2 1), addr := d.r64 .rfeCmpSurf, detail0 := n, detail1 := 1 }
        (d.bump32 .rfeCmpLate).stage x (tenantOf (fld (d.r32 .rfeCmpCtl) 29 24)) late

/-- Discard the RASTER work of a tenant: its progress, and its WAIT bits (R341). -/
def Sled.dropRaster (x : Ctx) (d : Sled) (t : TenantId) : Sled :=
  (List.range 2).foldl (fun d r =>
    let mine := fun (id : Nat) => decide (((d.item id).map (·.tenant)) = some t)
    let d := if ((d.rfe r).cur.map mine) = some true then d.rfeLeave x r else d
    (d.onRfe r fun f => { f with progs := f.progs.filter fun p => !mine p.item }).setRegBit .rfeGrowCtl 2 false t r) d

end Sys2Proof.Machine
end

