-- ==== Sys2Proof/Machine/Gate.lean ====
section
/-! DEFINITION. The Gate: command queues, admission, completion, tenant registers, tenant reset, and the ledger's toll (03_tenants.md). -/
namespace Sys2Proof.Machine

/-! ### Queues and entries (R69 to R72) -/

/-- A queue's key in the table of queues. -/
def qKey (t : TenantId) (q : Nat) : Nat := t.val * 32 + q
/-- A queue as the Gate holds it. -/
def Sled.queue (d : Sled) (t : TenantId) (q : Nat) : Queue := mget d.queues (qKey t q)
/-- Change a queue. -/
def Sled.onQueue (d : Sled) (t : TenantId) (q : Nat) (f : Queue → Queue) : Sled := { d with queues := mmod d.queues (qKey t q) f }

/-- The queue is enabled. -/
def Sled.qOn (d : Sled) (t : TenantId) (q : Nat) : Bool := bit (d.r32 .tntQCtl t q) 0
/-- The ring size in entries. -/
def Sled.qSize (d : Sled) (t : TenantId) (q : Nat) : Nat := 2 ^ fld (d.r32 .tntQCtl t q) 12 8
/-- The VA of the header line. -/
def Sled.qHdr (d : Sled) (t : TenantId) (q : Nat) : Nat := (d.r64 .tntQHdr t q).toNat
/-- The VA of the entry with a count. -/
def Sled.qSlot (d : Sled) (t : TenantId) (q : Nat) (n : Word32) : Nat := (d.r64 .tntQBase t q).toNat + n.toNat % d.qSize t q * 64
/-- Set a status bit of the queue. -/
def Sled.qBit (d : Sled) (t : TenantId) (q k : Nat) (b : Bool) : Sled := d.setRegBit .tntQStatus k b t q
/-- Store AGE. -/
def Sled.qAge (d : Sled) (t : TenantId) (q n : Nat) : Sled := d.w32 .tntQStatus (setFld (d.r32 .tntQStatus t q) 15 12 n) t q

/-- The 64 bytes of an entry by its fields. -/
structure QEntry where
  kind : Byte
  flags : Byte
  rsv : BitVec 16
  cost : Word32
  compl : Word64
  payload : BitVec 384
deriving DecidableEq, Repr

/-- Parse an entry (Table 3.2). -/
def parseEntry (bs : List Byte) : QEntry :=
  ⟨bs.getD 0 0, bs.getD 1 0, ofBytes 16 ((bs.drop 2).take 2), ofBytes 32 ((bs.drop 4).take 4), ofBytes 64 ((bs.drop 8).take 8), ofBytes 384 ((bs.drop 16).take 48)⟩

/-- What an entry is charged (Table 3.3). -/
def QEntry.charge (e : QEntry) : Nat := if e.kind = 0 ∨ e.kind = 7 ∨ 8 ≤ e.kind.toNat then 0 else max e.cost.toNat 1

/-- An entry consumed without work whatever its ORDERED flag (R103). -/
def QEntry.malformed (e : QEntry) : Bool :=
  decide (e.flags.toNat / 4 ≠ 0 ∨ e.rsv ≠ 0 ∨ ((e.kind = 0 ∨ e.kind = 7) ∧ e.payload ≠ 0) ∨ (e.kind = 1 ∧ e.payload >>> 64 ≠ 0))

/-- A Gate fault of a queue (R85): record it and stall. -/
def Sled.qFault (x : Ctx) (d : Sled) (t : TenantId) (q : Nat) (n : Word32) (f : TFault) : Sled :=
  (d.stage x t (f.record 2 q (BitVec.ofNat 8 q) n)).qBit t q 2 true

/-- The ILLEGAL record of an entry, SOURCE 0x02 (R103). -/
def Sled.gateIllegal (x : Ctx) (d : Sled) (t : TenantId) (q : Nat) (n : Word32) : Sled :=
  let r : FaultRec := { code := 7, sev := 2, source := 2, unit := BitVec.ofNat 16 q, queue := BitVec.ofNat 8 q, entry := n, addr := BitVec.ofNat 64 (d.qSlot t q n) }
  d.stage x t r

/-- A queue that is enabled, disabled or reset starts afresh: no head of it has waited (R76, R102). -/
def Sled.qFresh (d : Sled) (t : TenantId) (q : Nat) : Sled := ((d.onQueue t q fun _ => {}).qAge t q 0).qBit t q 0 false

/-- Read HEAD and TAIL from the header line and go on from them (R102). A TAIL too far from HEAD is refused (R70); as none was accepted before it, the queue is taken as empty
(DESIGN CHOICE, log 117). -/
def Sled.qOpen (x : Ctx) (d : Sled) (t : TenantId) (q : Nat) : Sled :=
  let r := d.uRead x t true (d.qHdr t q) 12
  match r.2 with
  | .fault f => r.1.qFault x t q 0xFFFFFFFF f
  | .ok bs bad =>
    if bad.any id then r.1.qBit t q 2 true
    else
      let head : Word32 := ofBytes 32 (bs.take 4)
      let tail : Word32 := ofBytes 32 (bs.drop 8)
      let tooFar := decide (r.1.qSize t q < (tail - head).toNat)
      (r.1.onQueue t q fun _ => { head := head, tail := if tooFar then head else tail, opened := true }).qBit t q 1 tooFar

/-- Open a queue whose EN has been set, once its tenant's tables are in force: for a tenant that is not enabled yet the header is read at the step 5 that enables it (R67, R102). Log 110. -/
def Sled.qStart (x : Ctx) (d : Sled) (t : TenantId) (q : Nat) : Sled := if d.active t then d.qOpen x t q else d

/-! ### Admission (R71, R74 to R78, R94, R95, R103) -/

/-- How an attempt to admit a head ends: consumed, left (with whether it counts as not fitting), or the queue stalled. -/
inductive Admit where
  | taken
  | left (waits : Bool)
  | stalled
deriving DecidableEq, Repr

/-- The µs left in the work window. -/
def Sled.windowLeft (x : Ctx) (d : Sled) : Nat := (d.bell.startedAt + (d.r32 .belTickLen).toNat - x.now) / 1000

/-- Entries of the queue that were admitted and have not completed. -/
def Sled.qBusy (d : Sled) (t : TenantId) (q : Nat) : Bool := d.items.any fun i => decide (i.tenant = t ∧ i.queue = q)

/-- Add an item. -/
def Sled.addItem (d : Sled) (i : Item) : Sled := { d with items := d.items ++ [i], nextItem := d.nextItem + 1 }

/-- Advance HEAD past the head, in the Gate and in the header line (R71). -/
def Sled.qAdvance (x : Ctx) (d : Sled) (t : TenantId) (q : Nat) : Sled :=
  let n := (d.queue t q).head + 1
  let d := (d.onQueue t q fun k => { k with head := n, atHead := false }).qAge t q 0
  let w := d.uWrite x t true (d.qHdr t q) (toBytes n 4)
  match w.2 with
  | none => w.1
  | some f => w.1.qFault x t q n f

/-- Payload word k. -/
def QEntry.word (e : QEntry) (k : Nat) : Word64 := e.payload.extractLsb' (64 * k) 64

/-- Whether the unit of an entry takes it now: `none` when it must wait at the head, else the unit and whether the entry completes as ILLEGAL
(R94, R214, R217, R284, R309, R320, R340, R368). -/
def Sled.unitTakes (d : Sled) (t : TenantId) (e : QEntry) : Option (Nat × Bool) :=
  if e.kind = 2 ∨ e.kind = 3 then
    let rr := if e.kind = 2 then hitRing else resRing
    let w := e.word 1
    let ok := decide (fld w 63 48 = 0 ∧ e.payload >>> 128 = 0)
    let st := d.teCheck rr t (fld w 39 32) (fld w 47 40) (e.word 0).toNat (fld w 31 0) 65536 ok
    if st = stRefused then none else some (0, decide (st ≠ stAccepted))
  else if e.kind = 4 then
    if rasterBad e.payload then some (0, true) else if d.rasterOk e.payload then some (d.rasterUnit e.payload, false) else none
  else if e.kind = 5 then
    let w := e.word 1
    let ok := decide (fld w 15 9 = 0 ∧ fld w 63 26 = 0 ∧ e.payload >>> 128 = 0)
    if !launchArgs (e.word 0).toNat (fld w 8 0) (fld w 25 16) ok then some (0, true)
    else if d.launchRoom (fld w 8 0) (fld w 25 16) then some (0, false) else none
  else if e.kind = 6 then
    if porterBad e.payload then some (0, true) else if d.porterOk e.payload then some (d.porterDie e.payload, false) else none
  else some (0, decide (8 ≤ e.kind.toNat))

/-- Write the completion word of a finished item and drop the item; the event of FLAGS.EVENT (R72, R73). A fault of that write is recorded by the Gate and the item is
dropped (DESIGN CHOICE, log 117). -/
def Sled.completeItem (x : Ctx) (d : Sled) (i : Item) : Sled :=
  let word : Word64 := BitVec.ofNat 64 (i.status.toNat + 256 * i.fault.toNat + 65536 * (d.count.toNat % 2 ^ 48))
  let d := if i.compl = 0 then d else
    let w := d.uWrite x i.tenant true i.compl.toNat (toBytes word 8)
    match w.2 with
    | none => w.1
    | some f => w.1.stage x i.tenant (f.record 2 i.queue (BitVec.ofNat 8 i.queue) i.entry)
  let d := { d with items := d.items.filter (fun j => decide (j.id ≠ i.id)), carried := d.carried.filter (· ≠ i.id) }
  let h := d.r32 .schQnotify i.tenant i.queue
  if bit i.flags 1 && decide (h ≠ 0) then d.event x i.tenant 7 h else d

/-- An item completes at its admission (Table 3.3). -/
def Sled.finishNow (x : Ctx) (d : Sled) (id : Nat) : Sled :=
  let d := d.finish id 0 0
  match d.items.find? fun i => decide (i.id = id) with
  | some i => d.completeItem x i
  | none => d

/-- Hand an admitted entry to its unit. -/
def Sled.handOver (x : Ctx) (d : Sled) (t : TenantId) (e : QEntry) (id : Nat) : Sled :=
  let w := e.word 1
  if e.kind = 2 ∨ e.kind = 3 then
    (d.teSubmit x (if e.kind = 2 then hitRing else resRing) t id (fld w 39 32) (fld w 47 40) (e.word 0).toNat (fld w 31 0) 65536 true).1
  else if e.kind = 5 then d.launchGo x t id (e.word 0).toNat (fld w 8 0) (fld w 25 16) true
  else if e.kind = 0 ∨ e.kind = 7 then d.finishNow x id
  else d

/-- Charge an admitted entry (R74). -/
def Sled.debit (d : Sled) (t : TenantId) (n : Nat) : Sled :=
  (d.w32 .gteRemain (BitVec.ofNat 32 ((d.r32 .gteRemain t).toNat - n)) t)

/-- Consume the head with status ILLEGAL: no charge, and a record of the Gate or of the unit that refuses it (R103, R217, R340). -/
def Sled.consumeBad (x : Ctx) (d : Sled) (t : TenantId) (q : Nat) (e : QEntry) (unitRecord : Bool) : Sled :=
  let n := (d.queue t q).head
  let u := if e.kind = 4 then d.rasterUnit e.payload else if e.kind = 6 then d.porterDie e.payload else 0
  let i : Item := { id := d.nextItem, tenant := t, queue := q, entry := n, kind := e.kind, flags := e.flags, cost := e.cost, compl := e.compl, payload := e.payload,
                    unit := if u < 2 then u else 0, st := .finished, status := 3, fault := 7 }
  let d := if unitRecord && decide (e.kind = 6) then d.porterIllegal x i else if unitRecord && decide (e.kind = 4) then d.rasterIllegal x i 0 else d.gateIllegal x t q n
  ((d.addItem i).qAdvance x t q).completeItem x i

/-- Try to admit the head of a queue. `window` is set for a pass of the work window (R77). -/
def Sled.admitHead (x : Ctx) (d : Sled) (t : TenantId) (q : Nat) (window : Bool) : Sled × Admit :=
  let k := d.queue t q
  let r := d.uRead x t true (d.qSlot t q k.head) 64
  match r.2 with
  | .fault f => (r.1.qFault x t q k.head f, .stalled)
  | .ok bs bad =>
    let d := r.1
    let e := parseEntry bs
    if bad.any id then (d.qBit t q 2 true, .stalled)
    else if e.malformed then (d.consumeBad x t q e false, .taken)
    else if (bit e.flags 0 || decide (e.kind = 7)) && d.qBusy t q then (d, .left true)
    else if 8 ≤ e.kind.toNat then (d.consumeBad x t q e false, .taken)
    else if (d.r32 .gteRemain t).toNat < e.charge ∨ (window ∧ d.windowLeft x < e.charge) then (d, .left true)
    else
      let i : Item := { id := d.nextItem, tenant := t, queue := q, entry := k.head, kind := e.kind, flags := e.flags, cost := e.cost, compl := e.compl, payload := e.payload, charge := e.charge }
      let take := fun (d : Sled) (i : Item) => ((d.addItem i).debit t e.charge).bump32 .gteAdmitted t
      if e.kind = 1 then
        let s := d.ready x t (e.word 0).toNat i.id true
        match s.2 with
        | .accepted => ((take s.1 { i with st := .running }).qAdvance x t q, .taken)
        | .refused => (s.1, .left false)
        | .fault f => (s.1.qFault x t q k.head f, .stalled)
        | _ => (s.1.consumeBad x t q e false, .taken)
      else match d.unitTakes t e with
        | none => (d, .left false)
        | some (_, true) => (d.consumeBad x t q e true, .taken)
        | some (u, false) =>
          let d := take d { i with unit := u, st := if e.kind = 4 ∨ e.kind = 5 ∨ e.kind = 6 then .queued else .running }
          ((d.qAdvance x t q).handOver x t e i.id, .taken)

/-- This is the settle at which a declared Stop ends the sled (R422). -/
def Sled.stopsHere (d : Sled) : Bool := bit (d.r32 .pwrStatus) 2 && decide (d.power.stopAfter = some d.count)
/-- The sled carries tenants: it is in service, or it was and its tenants are fenced or drained (R401, R404, R405). -/
def Sled.carries (d : Sled) : Bool := decide (d.rackState = 4 ∨ d.rackState = 5 ∨ d.rackState = 7)

/-- The Gate may admit for a tenant (Table 3.8, Table 3.11, R29, R31, R96, R401). Once a Stop at the settle is declared it runs no pass of the work window, and at the settle that ends
the sled none (R422). -/
def Sled.gateOpen (d : Sled) (t : TenantId) : Bool :=
  d.active t && d.carries && !d.bell.absent && !d.stopsHere && !(d.bell.work && bit (d.r32 .pwrStatus) 2) && !bit (d.r32 .tntCtl t) 1 && !d.resetBusy t && !d.fenced t && !(d.twin t).held && !(d.twin t).unplaced

/-- The queue has a head the Gate may look at. -/
def Sled.qReady (d : Sled) (t : TenantId) (q : Nat) : Bool :=
  let k := d.queue t q
  d.qOn t q && k.opened && !bit (d.r32 .tntQStatus t q) 2 && decide (k.head ≠ k.tail)

/-- HEAD passes the entries that a Mirror overrun ended (Table 3.4). -/
def Sled.qPass (x : Ctx) (t : TenantId) (q : Nat) : Nat → Sled → Sled
  | 0, d => d
  | n + 1, d =>
    let k := d.queue t q
    if k.head ≠ k.tail ∧ k.skip.contains k.head then
      Sled.qPass x t q n ((d.onQueue t q fun k => { k with skip := k.skip.filter (· ≠ k.head) }).qAdvance x t q)
    else d

/-- Admit heads of one queue in order until one stays (R75). -/
def Sled.admitQueue (x : Ctx) (t : TenantId) (q : Nat) (window : Bool) : Nat → Sled → Sled
  | 0, d => d
  | n + 1, d =>
    let d := Sled.qPass x t q (d.queue t q).skip.length d
    if !d.qReady t q then d.qBit t q 0 false
    else
      let r := d.admitHead x t q window
      match r.2 with
      | .taken => Sled.admitQueue x t q window n r.1
      | .left w => r.1.qBit t q 0 w
      | .stalled => r.1.qBit t q 0 false

/-- The queues of a tenant in the order of a pass: PRIO, then number (R75). -/
def Sled.queueOrder (d : Sled) (t : TenantId) : List Nat :=
  (List.range 8).flatMap fun p => (List.range 32).filter fun q => d.qOn t q && decide (fld (d.r32 .tntQCtl t q) 3 1 = p)

/-- One admission pass for a tenant (R75). -/
def Sled.gatePass (x : Ctx) (d : Sled) (t : TenantId) (window : Bool) : Sled :=
  if d.gateOpen t then
    (d.queueOrder t).foldl (fun d q => Sled.admitQueue x t q window (((d.queue t q).tail - (d.queue t q).head).toNat + 1) d) d
  else d

/-- A pass of the work window, which Mirror tenants do not get (R77). -/
def Sled.windowPass (x : Ctx) (d : Sled) (t : TenantId) : Sled := if d.bell.work && !d.mirror t then d.gatePass x t true else d

/-- QUEUE_TAIL_STORE: a TAIL store reaches the Gate, which takes it and, in the work window, runs a pass (R70, R71, R77, R93). -/
def Sled.tailStore (x : Ctx) (d : Sled) (t : TenantId) (q : Nat) : Sled :=
  if !d.qOn t q || !(d.queue t q).opened then d
  else
    let r := d.uRead x t true (d.qHdr t q + 8) 4
    match r.2 with
    | .fault f => r.1.qFault x t q 0xFFFFFFFF f
    | .ok bs bad =>
      if bad.any id then r.1.qBit t q 2 true
      else
        let tail : Word32 := ofBytes 32 bs
        if r.1.qSize t q < (tail - (d.queue t q).head).toNat then r.1.qBit t q 1 true
        else ((r.1.onQueue t q fun k => { k with tail := tail }).qBit t q 1 false).windowPass x t

def execQueueTailStore (sl : SledId) (t : TenantId) (q : QueueId) (s : State) : Host.Outcome State Fault Refusal :=
  .next (s.onSled sl fun x d => d.tailStore x t q)

/-! ### The rows of the entry kinds -/

/-- The entry that a TAIL store makes the head of its queue, if the store is taken: what the Gate reads at HEAD once TAIL has moved past it. -/
def Sled.headEntry (x : Ctx) (d : Sled) (t : TenantId) (q : Nat) : Option QEntry :=
  let k := d.queue t q
  if !d.qOn t q || !k.opened then none
  else
    match (d.uRead x t true (d.qHdr t q + 8) 4).2, (d.uRead x t true (d.qSlot t q k.head) 64).2 with
    | .ok tb _, .ok bs _ => if (ofBytes 32 tb : Word32) = k.head then none else some (parseEntry bs)
    | _, _ => none

/-- The row of an entry kind: the TAIL store of a queue whose head is of one of `kinds` reaches the Gate, and the pass it causes admits what fits (R75, R77); at settle
the row GATE_SETTLE_ADMIT admits it (R76). DESIGN CHOICE, log 42. -/
def Sled.admitKind (x : Ctx) (d : Sled) (t : TenantId) (q : Nat) (kinds : QEntry → Bool) : Sled :=
  match d.headEntry x t q with
  | some e => if kinds e then d.tailStore x t q else d
  | none => d

/-- A row of a well-formed entry kind. -/
def isKind (k : Byte) (e : QEntry) : Bool := decide (e.kind = k) && !e.malformed

def execEntryNop (sl : SledId) (t : TenantId) (q : QueueId) (s : State) : Host.Outcome State Fault Refusal :=
  .next (s.onSled sl fun x d => d.admitKind x t q (isKind 0))
def execThreadEntry (sl : SledId) (t : TenantId) (q : QueueId) (s : State) : Host.Outcome State Fault Refusal :=
  .next (s.onSled sl fun x d => d.admitKind x t q (isKind 1))
def execTeBatch (sl : SledId) (t : TenantId) (q : QueueId) (s : State) : Host.Outcome State Fault Refusal :=
  .next (s.onSled sl fun x d => d.admitKind x t q (isKind 2))
def execProbeBatch (sl : SledId) (t : TenantId) (q : QueueId) (s : State) : Host.Outcome State Fault Refusal :=
  .next (s.onSled sl fun x d => d.admitKind x t q (isKind 3))
def execDepotEntry (sl : SledId) (t : TenantId) (q : QueueId) (s : State) : Host.Outcome State Fault Refusal :=
  .next (s.onSled sl fun x d => d.admitKind x t q (isKind 5))
def execMarker (sl : SledId) (t : TenantId) (q : QueueId) (s : State) : Host.Outcome State Fault Refusal :=
  .next (s.onSled sl fun x d => d.admitKind x t q (isKind 7))
def execReservedEntryKind (sl : SledId) (t : TenantId) (q : QueueId) (s : State) : Host.Outcome State Fault Refusal :=
  .next (s.onSled sl fun x d => d.admitKind x t q fun e => decide (8 ≤ e.kind.toNat) || e.malformed)

/-! ### Completion (R73, R77) -/

/-- The head of a queue is an ORDERED entry or a MARKER, which waits for the entries before it (R95). -/
def Sled.headHeld (x : Ctx) (d : Sled) (t : TenantId) (q : Nat) : Bool :=
  d.qReady t q && (match (d.uRead x t true (d.qSlot t q (d.queue t q).head) 64).2 with
    | .ok bs bad => !bad.any id && !(parseEntry bs).malformed && (bit (parseEntry bs).flags 0 || decide ((parseEntry bs).kind = 7))
    | .fault _ => false)

/-- An item completes; where this resolves the dependency of its queue's head, the Gate runs a pass (R77). -/
def Sled.complete (x : Ctx) (d : Sled) (i : Item) : Sled :=
  let e := d.completeItem x i
  if d.headHeld x i.tenant i.queue && !e.qBusy i.tenant i.queue then e.windowPass x i.tenant else e

/-- ENTRY_COMPLETION: the oldest finished item with this count, once nothing of it is left to write memory (R73). -/
def Sled.entryCompletion (x : Ctx) (d : Sled) (t : TenantId) (q : Nat) (n : Word32) : Sled :=
  match d.items.find? fun i => decide (i.tenant = t ∧ i.queue = q ∧ i.entry = n ∧ i.st = .finished) && !d.workLeft i.id with
  | some i => d.complete x i
  | none => d

def execEntryCompletion (sl : SledId) (t : TenantId) (q : QueueId) (entry : Word32) (s : State) : Host.Outcome State Fault Refusal :=
  .next (s.onSled sl fun x d => d.entryCompletion x t q entry)

/-! ### Tenant registers (R67, R68, R90 to R92, R102) -/

/-- A Rack Factor's write to a TNT_ register of a running Mirror tenant goes to both twins (R391). -/
def State.bothTwins (s : State) (who : Requester) (sl : SledId) (t : TenantId) : Bool :=
  decide (who = .rackFactor) && (s.sled sl).active t && (s.sled sl).mirror t && s.inService (twinOf sl)

/-- A write to a TNT_ register of a tenant on a sled, and on its twin where R391 says so. -/
def State.onTnt (s : State) (who : Requester) (sl : SledId) (t : TenantId) (f : Ctx → Sled → Sled) : State :=
  if s.bothTwins who sl t then (s.onSled sl f).onSled (twinOf sl) f else s.onSled sl f

/-- A write to TNT_CTL. TWIN = 3 leaves TWIN; an enable beyond 16 tenants does nothing and sets SLOT_REFUSED (R67). No sum of allotments is checked here: R68 tests a
write of TNT_ALLOT only (DESIGN CHOICE, log 117). -/
def Sled.tntCtlWrite (d : Sled) (t : TenantId) (v : Word32) : Sled :=
  let old := d.r32 .tntCtl t
  let v := v &&& BitVec.ofNat 32 (regInfo .tntCtl).rw
  let v := if fld v 5 4 = 3 then setFld v 5 4 (fld old 5 4) else v
  let on := allTenants.countP fun u => decide (u ≠ t) && bit (d.r32 .tntCtl u) 0
  if bit v 0 && !bit old 0 && decide (16 ≤ on) then d.setRegBit .tntStatus 2 true t
  else (d.w32 .tntCtl v t).setRegBit .tntStatus 2 false t

def execTntCtlWrite (who : Requester) (sl : SledId) (t : TenantId) (v : Word32) (s : State) : Host.Outcome State Fault Refusal :=
  .next (s.onTnt who sl t fun _ d => d.tntCtlWrite t v)

/-- Healthy cores of the package. -/
def Sled.healthyCores (d : Sled) : Nat := (allCores.countP d.coreUp)

/-- A write to TNT_ALLOT, checked against the other enabled tenants (R68, R90). -/
def Sled.tntAllotWrite (d : Sled) (t : TenantId) (v : Word32) : Sled :=
  let v := v &&& BitVec.ofNat 32 (regInfo .tntAllot).rw
  let others := allTenants.filter fun u => decide (u ≠ t) && bit (d.r32 .tntCtl u) 0
  let sum := fun (f : Word32 → Nat) => others.foldl (fun a u => a + f (d.r32 .tntAllot u)) (f v)
  let cores := fun (w : Word32) => fld w 6 0
  let tes := fun (w : Word32) => fld w 12 8
  let rfe := fun (w : Word32) => fld w 25 16
  if 1000 < rfe v ∨ 16 < tes v ∨ 96 < cores v ∨ d.healthyCores < sum cores ∨ 16 < sum tes ∨ 1000 < sum rfe then d.setRegBit .tntStatus 3 true t
  else (d.w32 .tntAllot v t).setRegBit .tntStatus 3 false t

def execTntAllotWrite (who : Requester) (sl : SledId) (t : TenantId) (v : Word32) (s : State) : Host.Outcome State Fault Refusal :=
  .next (s.onTnt who sl t fun _ d => d.tntAllotWrite t v)

/-- A write to TNT_FLOG_BASE (R92). -/
def Sled.flogBaseWrite (d : Sled) (t : TenantId) (v : Word64) : Sled :=
  if fld v 11 0 ≠ 0 then d.setRegBit .tntStatus 5 true t else (d.w64 .tntFlogBase v t).setRegBit .tntStatus 5 false t

/-- Clear STALL_FAULT and resume the queue (R85). -/
def Sled.qResume (x : Ctx) (d : Sled) (t : TenantId) (q : Nat) : Sled :=
  let d := d.qBit t q 2 false
  if d.qOn t q && !(d.queue t q).opened then d.qStart x t q else d

def execQResume (who : Requester) (sl : SledId) (t : TenantId) (q : QueueId) (s : State) : Host.Outcome State Fault Refusal :=
  .next (s.onTnt who sl t fun x d => d.qResume x t q)

/-- A write to TNT_Q_CTL (R91, R102), RESUME included: a refused change of size changes nothing, RESUME neither. A refused enable stores LOG2SIZE and PRIO, and CFG_BAD
clears at the next accepted write (DESIGN CHOICE, log 117). -/
def Sled.qCtlWrite (x : Ctx) (d : Sled) (t : TenantId) (q : Nat) (v : Word32) : Sled :=
  let old := d.r32 .tntQCtl t q
  let new := v &&& BitVec.ofNat 32 (regInfo .tntQCtl).rw
  let lg := fld v 12 8
  let d' :=
    if bit old 0 && bit v 0 then
      (if lg ≠ fld old 12 8 then d.qBit t q 3 true else (d.w32 .tntQCtl new t q).qBit t q 3 false)
    else if bit v 0 then
      (if lg < 4 ∨ 16 < lg ∨ (d.r64 .tntQBase t q).toNat % (2 ^ lg * 64) ≠ 0 ∨ d.qHdr t q % 64 ≠ 0 then
        (d.w32 .tntQCtl (new &&& ~~~1#32) t q).qBit t q 3 true
      else (((d.w32 .tntQCtl new t q).qBit t q 3 false).qFresh t q).qStart x t q)
    else if bit old 0 then ((d.w32 .tntQCtl new t q).qBit t q 3 false).qFresh t q
    else (d.w32 .tntQCtl new t q).qBit t q 3 false
  if bit v 16 && !(bit old 0 && bit v 0 && decide (lg ≠ fld old 12 8)) then d'.qResume x t q else d'

def execTntQCtlWrite (who : Requester) (sl : SledId) (t : TenantId) (q : QueueId) (v : Word32) (s : State) : Host.Outcome State Fault Refusal :=
  .next (s.onTnt who sl t fun x d => d.qCtlWrite x t q v)

/-! ### Tenant reset (R88, R97, R98, R252) -/

/-- Remove every thread of a tenant from cores and ready lists (R252). -/
def Sled.dropThreads (x : Ctx) (d : Sled) (t : TenantId) : Sled :=
  let d := allCores.foldl (fun (d : Sled) c => if (d.core c).entry.isSome && decide ((d.core c).tenant = t) then d.releaseCore c else d) d
  (d.threads.filter fun r => decide (r.2.2.tenant = t)).foldl (fun d r =>
    let v := r.2.2
    let d := (d.setList r.1 v.channel ((d.readyList r.1 v.channel).filter (· ≠ r.2.1))).setEnt r.1 r.2.1 { v with st := .none, wake := false }
    (d.tcbState x r.1 r.2.1).setEnt r.1 r.2.1 { (default : Entry) with gen := v.gen }) d

/-- Write back every dirty line (Table 3.8): the lines of other tenants may be written back at any time (R121). -/
def Sled.flushAll (x : Ctx) (d : Sled) : Sled := d.cache.foldl (fun d e => d.flushLine x e.1) d

/-- What removing all of a tenant's work does: its items complete as ABORTED_RESET. -/
def State.abortTenant (s : State) (sl : SledId) (t : TenantId) : State :=
  let s := (List.range 2).foldl (fun (s : State) die => s.portDiscard sl t die) s
  s.onSled sl fun x d =>
    let d := ((((d.dropThreads x t).dropJobs t).dropRaster x t).dropKernels x t true)
    { d with items := d.items.map fun i => if i.tenant = t ∧ i.st ≠ .finished then { i with st := .finished, status := 2, fault := 0 } else i,
             carried := d.carried.filter fun id => decide ((d.item id).map (·.tenant) ≠ some t) }

/-- A tenant reset starts (Table 3.8). -/
def State.resetTenant (s : State) (sl : SledId) (t : TenantId) : State :=
  (s.abortTenant sl t).onSled sl fun x d =>
    let d := (List.range 32).foldl (fun (d : Sled) q => if d.qOn t q then (d.setRegBit .tntQCtl 0 false t q).qFresh t q else d) d
    let d := d.flushAll x
    let d := { d.flushTenant x t with undo := d.undo.filter fun u => decide (u.tenant ≠ t) }
    (d.setRegBit .tntStatus 1 true t).onTen t fun n => { n with resetAt := some x.now, resetPend := false }

/-- A reset of a Mirror tenant waits for the boundary. -/
def Sled.pendReset (d : Sled) (t : TenantId) : Sled := d.onTen t fun n => { n with resetPend := true }

/-- TNT_RESET.GO: at once for Solo and Standby, at the next boundary for Mirror, there on both twins of a pair; a GO while RESET_BUSY is ignored (R88, R97). -/
def State.resetGo (s : State) (sl : SledId) (t : TenantId) : State :=
  let d := s.sled sl
  let pair := bit (d.r32 .twnT t 0) 4 && bit ((s.sled (twinOf sl)).r32 .twnT t 0) 4
  if d.resetBusy t then s
  else if d.mirror t then
    let s := s.onSled sl fun _ d => d.pendReset t
    if pair then s.onSled (twinOf sl) fun _ d => d.pendReset t else s
  else s.resetTenant sl t

def execTntResetGo (_who : Requester) (sl : SledId) (t : TenantId) (s : State) : Host.Outcome State Fault Refusal := .next (s.resetGo sl t)

/-- TENANT_RESET_DONE: RESET_BUSY clears. -/
def Sled.resetDone (d : Sled) (t : TenantId) : Sled :=
  if d.resetBusy t then (d.setRegBit .tntStatus 1 false t).onTen t fun n => { n with resetAt := none } else d

def execTenantResetDone (sl : SledId) (t : TenantId) (s : State) : Host.Outcome State Fault Refusal :=
  .next (s.onSled sl fun _ d => d.resetDone t)

/-! ### The toll (R87, R99, R100) -/

/-- TOLL_REACHED: the energy of the tick has reached the toll in force; before the ledger commit of step 3 it is not yet in LED_CUR (R86). -/
def Sled.tollReached (x : Ctx) (d : Sled) (t : TenantId) : Sled :=
  let n := d.ten t
  let e := if d.bell.settle = 1 ∨ d.bell.settle = 2 ∨ d.bell.settle = 3 then n.ledNext else (d.r64 .ledCur t).toNat
  if n.toll = 0 ∨ n.tolled ∨ e < 1000 * n.toll.toNat ∨ !d.active t then d
  else
    let r : FaultRec := { code := 0x0D, sev := 1, source := 9 }
    ((d.stage x t r).setRegBit .ledStatus 0 true t).onTen t fun n => { n with tolled := true }

def execTollReached (sl : SledId) (t : TenantId) (s : State) : Host.Outcome State Fault Refusal :=
  .next (s.onSled sl fun x d => d.tollReached x t)

end Sys2Proof.Machine
end

