-- ==== Sys2Proof/Machine/Hash.lean ====
section
/-! DEFINITION. The published functions the spec cites: KMAC256 (NIST SP 800-185, R392), SHA-384 (R475, R402) and ECDSA P-384 (R475). -/
namespace Sys2Proof.Machine

/-! ### Keccak -/

/-- The round constants of Keccak-f[1600]. -/
def keccakRc : List Word64 := [0x1, 0x8082, 0x800000000000808A, 0x8000000080008000, 0x808B, 0x80000001, 0x8000000080008081, 0x8000000000008009, 0x8A, 0x88, 0x80008009, 0x8000000A, 0x8000808B, 0x800000000000008B, 0x8000000000008089, 0x8000000000008003, 0x8000000000008002, 0x8000000000000080, 0x800A, 0x800000008000000A, 0x8000000080008081, 0x8000000000008080, 0x80000001, 0x8000000080008008]
/-- The rotation of lane x + 5y. -/
def keccakRot : List Nat := [0, 1, 62, 28, 27, 36, 44, 6, 55, 20, 3, 10, 43, 25, 39, 41, 45, 15, 21, 8, 18, 2, 61, 56, 14]

/-- A round of Keccak-f[1600]; lane (x, y) stands at x + 5y. -/
def keccakRound (a : List Word64) (rc : Word64) : List Word64 :=
  let g := fun (l : List Word64) (x y : Nat) => l.getD (x % 5 + 5 * (y % 5)) 0
  let c := (List.range 5).map fun x => g a x 0 ^^^ g a x 1 ^^^ g a x 2 ^^^ g a x 3 ^^^ g a x 4
  let t := (List.range 5).map fun x => c.getD ((x + 4) % 5) 0 ^^^ (c.getD ((x + 1) % 5) 0).rotateLeft 1
  let b := (List.range 25).map fun i =>
    let y := i % 5
    let x := (i % 5 + 3 * (i / 5)) % 5
    (g a x y ^^^ t.getD x 0).rotateLeft (keccakRot.getD (x + 5 * y) 0)
  (List.range 25).map fun i =>
    let v := g b (i % 5) (i / 5) ^^^ (~~~(g b (i % 5 + 1) (i / 5)) &&& g b (i % 5 + 2) (i / 5))
    if i = 0 then v ^^^ rc else v

/-- Keccak-f[1600]. -/
def keccakF (a : List Word64) : List Word64 := keccakRc.foldl keccakRound a

/-- Absorb bytes in blocks of 136. -/
def keccakAbsorb (a : List Word64) (bs : List Byte) : Nat → List Word64
  | 0 => a
  | n + 1 =>
    let a := (List.range 25).map fun i => if i < 17 then a.getD i 0 ^^^ ofBytes 64 ((bs.drop (8 * i)).take 8) else a.getD i 0
    keccakAbsorb (keccakF a) (bs.drop 136) n

/-- Big-endian bytes of a number, at least one. -/
def beBytes (n : Nat) : List Byte := (List.range (max 1 ((Nat.log2 n) / 8 + 1))).reverse.map fun k => BitVec.ofNat 8 (n / 256 ^ k)
/-- left_encode of SP 800-185. -/
def leftEncode (n : Nat) : List Byte := BitVec.ofNat 8 (beBytes n).length :: beBytes n
/-- right_encode. -/
def rightEncode (n : Nat) : List Byte := beBytes n ++ [BitVec.ofNat 8 (beBytes n).length]
/-- encode_string. -/
def encodeString (s : List Byte) : List Byte := leftEncode (8 * s.length) ++ s
/-- bytepad to the rate of 136. -/
def bytepad (s : List Byte) : List Byte :=
  let z := leftEncode 136 ++ s
  z ++ List.replicate ((136 - z.length % 136) % 136) 0

/-- The first 32 bytes of cSHAKE256 with function name "KMAC" and customization `s`. -/
def cshake256 (s x : List Byte) : List Byte :=
  let m := bytepad (encodeString [0x4B, 0x4D, 0x41, 0x43] ++ encodeString s) ++ x ++ [0x04]
  let pad := (136 - m.length % 136) % 136
  let m := m ++ List.replicate pad 0
  let m := m.take (m.length - 1) ++ [m.getD (m.length - 1) 0 ||| 0x80]
  ((keccakAbsorb (List.replicate 25 0) m (m.length / 136)).take 4).flatMap fun l => toBytes l 8

/-- KMAC256(K, X, 256, S) as a little-endian integer (R392). -/
def kmac256 (key x s : List Byte) : Nat := bytesNat (cshake256 s (bytepad (encodeString key) ++ x ++ rightEncode 256))

/-! ### SHA-384 -/

/-- Round constants 0 to 9. -/
def sha512K0 : List Word64 := [0x428A2F98D728AE22, 0x7137449123EF65CD, 0xB5C0FBCFEC4D3B2F, 0xE9B5DBA58189DBBC, 0x3956C25BF348B538, 0x59F111F1B605D019, 0x923F82A4AF194F9B, 0xAB1C5ED5DA6D8118, 0xD807AA98A3030242, 0x12835B0145706FBE]
/-- Round constants 10 to 19. -/
def sha512K1 : List Word64 := [0x243185BE4EE4B28C, 0x550C7DC3D5FFB4E2, 0x72BE5D74F27B896F, 0x80DEB1FE3B1696B1, 0x9BDC06A725C71235, 0xC19BF174CF692694, 0xE49B69C19EF14AD2, 0xEFBE4786384F25E3, 0xFC19DC68B8CD5B5, 0x240CA1CC77AC9C65]
/-- Round constants 20 to 29. -/
def sha512K2 : List Word64 := [0x2DE92C6F592B0275, 0x4A7484AA6EA6E483, 0x5CB0A9DCBD41FBD4, 0x76F988DA831153B5, 0x983E5152EE66DFAB, 0xA831C66D2DB43210, 0xB00327C898FB213F, 0xBF597FC7BEEF0EE4, 0xC6E00BF33DA88FC2, 0xD5A79147930AA725]
/-- Round constants 30 to 39. -/
def sha512K3 : List Word64 := [0x6CA6351E003826F, 0x142929670A0E6E70, 0x27B70A8546D22FFC, 0x2E1B21385C26C926, 0x4D2C6DFC5AC42AED, 0x53380D139D95B3DF, 0x650A73548BAF63DE, 0x766A0ABB3C77B2A8, 0x81C2C92E47EDAEE6, 0x92722C851482353B]
/-- Round constants 40 to 49. -/
def sha512K4 : List Word64 := [0xA2BFE8A14CF10364, 0xA81A664BBC423001, 0xC24B8B70D0F89791, 0xC76C51A30654BE30, 0xD192E819D6EF5218, 0xD69906245565A910, 0xF40E35855771202A, 0x106AA07032BBD1B8, 0x19A4C116B8D2D0C8, 0x1E376C085141AB53]
/-- Round constants 50 to 59. -/
def sha512K5 : List Word64 := [0x2748774CDF8EEB99, 0x34B0BCB5E19B48A8, 0x391C0CB3C5C95A63, 0x4ED8AA4AE3418ACB, 0x5B9CCA4F7763E373, 0x682E6FF3D6B2B8A3, 0x748F82EE5DEFB2FC, 0x78A5636F43172F60, 0x84C87814A1F0AB72, 0x8CC702081A6439EC]
/-- Round constants 60 to 69. -/
def sha512K6 : List Word64 := [0x90BEFFFA23631E28, 0xA4506CEBDE82BDE9, 0xBEF9A3F7B2C67915, 0xC67178F2E372532B, 0xCA273ECEEA26619C, 0xD186B8C721C0C207, 0xEADA7DD6CDE0EB1E, 0xF57D4F7FEE6ED178, 0x6F067AA72176FBA, 0xA637DC5A2C898A6]
/-- Round constants 70 to 79. -/
def sha512K7 : List Word64 := [0x113F9804BEF90DAE, 0x1B710B35131C471B, 0x28DB77F523047D84, 0x32CAAB7B40C72493, 0x3C9EBE0A15C9BEBC, 0x431D67C49C100D4C, 0x4CC5D4BECB3E42B6, 0x597F299CFC657E2A, 0x5FCB6FAB3AD6FAEC, 0x6C44198C4A475817]
/-- The round constants of SHA-512. -/
def sha512K : List Word64 := sha512K0 ++ sha512K1 ++ sha512K2 ++ sha512K3 ++ sha512K4 ++ sha512K5 ++ sha512K6 ++ sha512K7
/-- The initial value of SHA-384. -/
def sha384Iv : List Word64 := [0xCBBB9D5DC1059ED8, 0x629A292A367CD507, 0x9159015A3070DD17, 0x152FECD8F70E5939, 0x67332667FFC00B31, 0x8EB44A8768581511, 0xDB0C2E0D64F98FA7, 0x47B5481DBEFA4FA4]

/-- The message schedule: the newest 16 words, and all so far in order. -/
def shaExpand (w : List Word64) : Nat → List Word64
  | 0 => w
  | n + 1 =>
    let g := fun (k : Nat) => w.getD (w.length - k) 0
    let s0 := (g 15).rotateRight 1 ^^^ (g 15).rotateRight 8 ^^^ (g 15 >>> 7)
    let s1 := (g 2).rotateRight 19 ^^^ (g 2).rotateRight 61 ^^^ (g 2 >>> 6)
    shaExpand (w ++ [g 16 + s0 + g 7 + s1]) n

/-- One block of SHA-512. -/
def shaBlock (h : List Word64) (block : List Byte) : List Word64 :=
  let w := shaExpand ((List.range 16).map fun i => ofBytes 64 ((block.drop (8 * i)).take 8).reverse) 64
  let r := (w.zip sha512K).foldl (fun (v : List Word64) (p : Word64 × Word64) =>
    let g := fun (k : Nat) => v.getD k 0
    let e := g 4
    let t1 := g 7 + (e.rotateRight 14 ^^^ e.rotateRight 18 ^^^ e.rotateRight 41) + ((e &&& g 5) ^^^ (~~~e &&& g 6)) + p.2 + p.1
    let a := g 0
    let t2 := (a.rotateRight 28 ^^^ a.rotateRight 34 ^^^ a.rotateRight 39) + ((a &&& g 1) ^^^ (a &&& g 2) ^^^ (g 1 &&& g 2))
    [t1 + t2, a, g 1, g 2, g 3 + t1, e, g 5, g 6]) h
  (h.zip r).map fun p => p.1 + p.2

/-- Absorb blocks of 128 bytes. -/
def shaBlocks (h : List Word64) (bs : List Byte) : Nat → List Word64
  | 0 => h
  | n + 1 => shaBlocks (shaBlock h (bs.take 128)) (bs.drop 128) n

/-- SHA-384: 48 bytes. -/
def sha384 (m : List Byte) : List Byte :=
  let len := (List.range 16).reverse.map fun k => (BitVec.ofNat 8 (8 * m.length / 256 ^ k) : Byte)
  let z := m ++ [0x80]
  let z := z ++ List.replicate ((240 - z.length % 128) % 128) 0 ++ len
  (((shaBlocks sha384Iv z (z.length / 128)).take 6).flatMap fun l => (toBytes l 8).reverse)

/-! ### ECDSA P-384 -/

/-- The prime of P-384. -/
def p384 : Nat := 2 ^ 384 - 2 ^ 128 - 2 ^ 96 + 2 ^ 32 - 1
/-- The order of its base point. -/
def p384n : Nat := 0xFFFFFFFFFFFFFFFFFFFFFFFFFFFFFFFFFFFFFFFFFFFFFFFFC7634D81F4372DDF581A0DB248B0A77AECEC196ACCC52973
/-- The coefficient b. -/
def p384b : Nat := 0xB3312FA7E23EE7E4988E056BE3F82D19181D9C6EFE8141120314088F5013875AC656398D8A2ED19D2A85C8EDD3EC2AEF
/-- The base point. -/
def p384g : Nat × Nat := (0xAA87CA22BE8B05378EB1C71EF320AD746E1D3B628BA79B9859F741E082542A385502F25DBF55296C3A545E3872760AB7,
  0x3617DE4A96262C6F5D9E98BF9292DC29F8F41DBD289A147CE9DA3113B5F0B8C00A60B1CE1D7E819D7A431D7C90EA0E5F)

/-- a ^ e mod m for e below 2^k. -/
def powMod (a e m : Nat) : Nat → Nat
  | 0 => 1 % m
  | k + 1 => let h := powMod (a * a % m) (e / 2) m k; if e % 2 = 1 then a * h % m else h

/-- The inverse modulo a prime. -/
def invMod (a m : Nat) : Nat := powMod (a % m) (m - 2) m 384

/-- The sum of two points; `none` is the point at infinity. -/
def ecAdd (a b : Option (Nat × Nat)) : Option (Nat × Nat) :=
  match a, b with
  | none, b => b
  | a, none => a
  | some (x1, y1), some (x2, y2) =>
    if x1 = x2 ∧ (y1 + y2) % p384 = 0 then none
    else
      let l := if x1 = x2 then (3 * x1 * x1 + p384 - 3) * invMod (2 * y1) p384 % p384
        else (y2 + p384 - y1) * invMod (x2 + p384 - x1) p384 % p384
      let x3 := (l * l + 2 * p384 - x1 - x2) % p384
      some (x3, (l * (x1 + p384 - x3) + p384 - y1) % p384)

/-- k times a point, for k below 2^n. -/
def ecMul (k : Nat) (p : Option (Nat × Nat)) : Nat → Option (Nat × Nat)
  | 0 => none
  | n + 1 => let h := ecMul (k / 2) (ecAdd p p) n; if k % 2 = 1 then ecAdd p h else h

/-- A big-endian number. -/
def beNat (bs : List Byte) : Nat := bytesNat bs.reverse

/-- ECDSA verification on P-384 of a digest: `key` is x then y, `sig` is r then s, big-endian. -/
def ecdsa384 (key digest sig : List Byte) : Bool :=
  let q := (beNat (key.take 48), beNat (key.drop 48))
  let r := beNat (sig.take 48)
  let s := beNat (sig.drop 48)
  let z := beNat digest
  if q.1 < p384 ∧ q.2 < p384 ∧ q.2 * q.2 % p384 = (q.1 ^ 3 + (p384 - 3) * q.1 + p384b) % p384 ∧ 0 < r ∧ r < p384n ∧ 0 < s ∧ s < p384n then
    let w := invMod s p384n
    match ecAdd (ecMul (z * w % p384n) (some p384g) 384) (ecMul (r * w % p384n) (some q) 384) with
    | none => false
    | some p => decide (p.1 % p384n = r)
  else false

end Sys2Proof.Machine
end

