-- ==== Sys2Proof/Machine/Twins.lean ====
section
/-! DEFINITION. What twin sleds do: reports, snapshots, rollback, activation, the Standby send, the Mirror comparison, re-pairing (12_twins_rack.md R384 to R416). -/
namespace Sys2Proof.Machine

/-! ### Reports and rack states -/

/-- How many Tether frames carry it: a page takes 16 (Table 12.3); a frame of the Route fabric none. -/
def Mail.tetherFrames (m : Mail) : Nat :=
  match m.body with
  | .page _ _ _ | .resilver _ _ _ => 16
  | .snap _ _ | .commit _ | .digest _ _ => 1
  | _ => 0
/-- The Route fabric carries it. -/
def Mail.onRoute (m : Mail) : Bool := decide (m.tetherFrames = 0)

/-- The Route fabric port of a sled is isolated: the sled reaches no memory, port or Factor but its own (R397). -/
def State.isolatedPort (s : State) (sl : SledId) : Bool := bit s.rack.isolated sl.val

/-- The Route fabric port of a sled is isolated; its frames under way there are lost (R397). -/
def State.cutOff (s : State) (sl : SledId) : State :=
  { s with rack := { s.rack with isolated := setBit s.rack.isolated sl.val true },
           mail := s.mail.filter fun (m : Mail) => !(decide (m.src = Node.sled sl ∨ m.dst = Node.sled sl) && m.onRoute),
           fabric := s.fabric.filter fun (f : Frame) => decide (f.src ≠ sl ∧ f.dst ≠ sl) }

/-- A Factor reports: with a console line, unless its console line is dead, and in an EVENT frame to the active Rack Factor, unless its port is isolated (R397, R448). The
active Rack Factor's own event is there at once. -/
def State.report (s : State) (n : Node) (r : Report) : State :=
  let dead := match n with | .sled sl => (s.sled sl).serial.console.dead | .rf b => (s.rf b).serial.console.dead
  let s := if dead then s else { s with reports := s.reports ++ [(n, r)] }
  match n with
  | .sled sl => if s.isolatedPort sl then s else { s with mail := s.mail ++ [⟨n, .rf s.activeRf, .event r⟩] }
  | .rf b => if b = s.activeRf then { s with rack := { s.rack with events := s.rack.events ++ [(n, r)] } } else { s with mail := s.mail ++ [⟨n, .rf s.activeRf, .event r⟩] }

/-- Change the rack state in the registers of the active Rack Factor; the standby has it from the state copies (R19). -/
def State.onActive (s : State) (f : RackFactor → RackFactor) : State := s.setRf s.activeRf (f (s.rf s.activeRf))
/-- Change both Rack Factors: the port registers of the two are one set. -/
def State.onRfs (s : State) (f : RackFactor → RackFactor) : State := (s.setRf 0 (f (s.rf 0))).setRf 1 (f (s.rf 1))
/-- A sled's rack state as the Rack Factor holds it (Table 12.13). -/
def State.rackOf (s : State) (sl : SledId) : Nat := fld ((s.rf s.activeRf).r32 .twnRkSled sl.val) 2 0
/-- A sled enters a rack state, with its reason (Tables 12.6, 12.10, 12.13); its own TWN_STATE shows it unless it has ended. -/
def State.setRack (s : State) (sl : SledId) (st reason : Nat) : State :=
  let s := s.onActive fun f => f.w32 .twnRkSled (setFld (setFld (f.r32 .twnRkSled sl.val) 2 0 st) 11 8 reason) sl.val
  s.onSled sl fun _ d => if d.ended then d else d.w32 .twnState (setFld (setFld (d.r32 .twnState) 2 0 st) 11 8 reason)

/-- Raise a TWN_EVENT bit (Table 12.11). -/
def Sled.twnRaise (x : Ctx) (d : Sled) (k : Nat) : Sled := { d with cfg := d.cfg.raiseBit x.now .twnEvent k }
/-- The Tether carries frames: UP or DEGRADED (Table 12.1). -/
def Sled.tetherUp (d : Sled) : Bool := decide (fld (d.r32 .twnLinkStatus) 2 0 = 2 ∨ fld (d.r32 .twnLinkStatus) 2 0 = 3)
/-- The Tether carries frames between a sled and its twin, neither of which is isolated (R397). -/
def State.linked (s : State) (sl : SledId) : Bool :=
  (s.sled sl).tetherUp && (s.sled (twinOf sl)).tetherUp && !s.isolatedPort sl && !s.isolatedPort (twinOf sl)

/-! ### TWN_T (R407) -/

/-- Bits of TWN_T word 0: MODE, PAIRED, LONE, JFULL. -/
def Sled.pairedT (d : Sled) (t : TenantId) : Bool := bit (d.r32 .twnT t 0) 4
def Sled.loneT (d : Sled) (t : TenantId) : Bool := bit (d.r32 .twnT t 0) 5
def Sled.jfullT (d : Sled) (t : TenantId) : Bool := bit (d.r32 .twnT t 0) 6
/-- Set MODE from the mode in force, with PAIRED, LONE and JFULL. -/
def Sled.setT (d : Sled) (t : TenantId) (paired lone jfull : Bool) : Sled :=
  let b := fun (v : Bool) (k : Nat) => if v then 2 ^ k else 0
  d.w32 .twnT (BitVec.ofNat 32 ((d.ten t).mode.toNat + b paired 4 + b lone 5 + b jfull 6)) t 0

/-- A tenant that a twin mode protects and this sled runs. -/
def Sled.protectedT (d : Sled) (t : TenantId) : Bool := d.active t && decide ((d.ten t).mode ≠ 0) && !(d.twin t).stopped

/-- The valid ranges of a tenant of one KIND, as (base page, pages). -/
def Sled.rangesOf (d : Sled) (t : TenantId) (kinds : List Nat) : List (Nat × Nat) :=
  (d.ranges.filter fun e => decide (fld e 61 56 = t.val) && kinds.contains (fld e 63 62)).map fun e => (fld e 30 0, fld e 55 32)
/-- The tenant's protected pages. -/
def Sled.pagesOf (d : Sled) (t : TenantId) (kinds : List Nat) : List Nat := (d.rangesOf t kinds).flatMap fun r => List.range' r.1 r.2
/-- The tenant's ranges of some KINDs take another one. -/
def Sled.setKinds (d : Sled) (t : TenantId) (kinds : List Nat) (k : Nat) : Sled :=
  (List.range 256).foldl (fun (d : Sled) i =>
    let e := d.r64 .twnRange i
    if fld e 61 56 = t.val ∧ fld e 63 62 ≠ 0 ∧ kinds.contains (fld e 63 62) then d.w64 .twnRange (setFld e 63 62 k) i else d) d

/-! ### Pages -/

/-- Read a page from the cells with the check of each word (R203): what it holds, and the sled afterwards. -/
def Sled.pageOut (x : Ctx) (d : Sled) (pg : Nat) : Sled × PageData :=
  let r := d.rawRead x (65536 * pg) 65536
  (r.1, { bytes := r.2.1, bad := (List.range 8192).filter fun k => r.2.2.getD (8 * k) false })

/-- Read pages in turn. -/
def Sled.pagesOut (x : Ctx) (d : Sled) (ps : List Nat) : Sled × List (Nat × PageData) :=
  ps.foldl (fun acc p => let r := acc.1.pageOut x p; (r.1, acc.2 ++ [(p, r.2)])) (d, [])

/-- Write a page over this sled's copy: lines held in the caches are discarded, and words uncorrectable at the source are stored so (R204). -/
def Sled.pageIn (d : Sled) (pg : Nat) (p : PageData) : Sled :=
  (List.range 1024).foldl (fun (d : Sled) i =>
    let ln := 1024 * pg + i
    let poison : BitVec 8 := BitVec.ofNat 8 ((List.range 8).foldl (fun a w => a + if p.bad.contains (8 * i + w) then 2 ^ w else 0) 0)
    (d.dropLine ln).putCellsLine ln (ofBytes 512 ((p.bytes.drop (64 * i)).take 64)) poison) d

/-! ### Snapshots (R385) -/

/-- The threads of a tenant, the READY ones last and in the order of their lists; a RUNNING one counts as READY. -/
def Sled.snapThreads (d : Sled) (t : TenantId) : List (Nat × Nat × Entry) :=
  let mine := d.threads.filter fun r => decide (r.2.2.tenant = t)
  let ready := [0, 1].flatMap fun die => (List.range 8).flatMap fun ch => (d.readyList die ch).filterMap fun e =>
    if (d.ent die e).tenant = t then some (die, e, d.ent die e) else none
  (mine.filter fun r => decide (r.2.2.st ≠ .ready ∧ r.2.2.st ≠ .running)) ++ ready
    ++ ((mine.filter fun r => decide (r.2.2.st = .running)).map fun r => (r.1, r.2.1, { r.2.2 with st := .ready }))

/-- The tenant control snapshot: every item of the tenant whose completion word has not been written, and the rings with the rays and probes (R385; the held state of a carried item's work goes with it: DEDUCED, log 45). -/
def Sled.snapOf (d : Sled) (t : TenantId) : Snap :=
  let mine := fun (id : Nat) => decide ((d.item id).map (·.tenant) = some t)
  { threads := d.snapThreads t
    items := d.items.filter fun i => decide (i.tenant = t)
    carried := d.carried.filter mine
    kernels := (d.depots.map fun p => (p.1, p.2.queue.filter fun k => decide (k.tenant = t))).filter fun p => !p.2.isEmpty
    inboxes := (d.depots.map fun p => (p.1, p.2.inbox.filter fun m => decide (m.tenant = t))).filter fun p => !p.2.isEmpty
    launches := d.launches.filter fun l => decide (l.tenant = t)
    porters := d.porters.filterMap fun p => p.2.bind fun r => if mine r.item then some (p.1, r) else none
    rasters := (d.rfes.map fun p => (p.1, p.2.progs.filter fun g => mine g.item)).filter fun p => !p.2.isEmpty
    slots := (List.range (d.held t).length).flatMap fun i => ((d.eng ((d.held t).getD i 0)).used.map fun p => (i, p.1, p.2))
    rings := (List.range (d.held t).length).flatMap fun i =>
      let g := d.eng ((d.held t).getD i 0)
      (g.hqs.map fun r => (i, false, r.1, r.2)) ++ g.rqs.map fun r => (i, true, r.1, r.2)
    ages := (List.range 32).filterMap fun q => if fld (d.r32 .tntQStatus t q) 15 12 = 0 then none else some (q, fld (d.r32 .tntQStatus t q) 15 12) }

/-- Forget everything the hardware holds of a tenant, writing nothing to memory and no completion word. -/
def Sled.forget (x : Ctx) (d : Sled) (t : TenantId) : Sled :=
  let d := allCores.foldl (fun (d : Sled) c => if (d.core c).entry.isSome && decide ((d.core c).tenant = t) then d.releaseCore c else d) d
  let d := (d.threads.filter fun r => decide (r.2.2.tenant = t)).foldl (fun (d : Sled) r =>
    (d.setList r.1 r.2.2.channel ((d.readyList r.1 r.2.2.channel).filter (· ≠ r.2.1))).setEnt r.1 r.2.1 { (default : Entry) with gen := r.2.2.gen }) d
  let mine := fun (id : Nat) => decide ((d.item id).map (·.tenant) = some t)
  let d := (((d.dropJobs t).dropRaster x t).dropKernels x t false)
  let d := [0, 1].foldl (fun (d : Sled) k => if ((d.porter k).map fun r => mine r.item) = some true then d.setPorter k none else d) d
  { d with items := d.items.filter fun i => decide (i.tenant ≠ t), carried := d.carried.filter fun id => !mine id }

/-- A PA of the home sled names the same offset here (R384; DEDUCED, log 46). -/
def rebasePa (sl : SledId) (pa : Nat) : Nat := if pa / 2 ^ 47 % 32 = (twinOf sl).val then 2 ^ 47 * sl.val + pa % 2 ^ 47 else pa

/-- Load a snapshot over a tenant of which nothing is held. Items and launches take fresh serials; an entry that another tenant holds is replaced by
the lowest free one (DESIGN CHOICE, log 47). -/
def Sled.loadSnap (x : Ctx) (d : Sled) (t : TenantId) (p : Snap) : Sled :=
  let base := d.nextItem
  let lbase := d.nextLaunch
  let top := fun (l : List Nat) => l.foldl (fun a b => max a (b + 1)) 0
  let pas := fun (l : List (Nat × Nat × Nat)) => l.map fun (q : Nat × Nat × Nat) => (q.1, rebasePa x.sl q.2.1, q.2.2)
  let mv := fun (l : List (Nat × List Kernel)) (dep : Nat) => ((l.filter fun q => decide (q.1 = dep)).flatMap (·.2)).map
    fun (k : Kernel) => { k with item := base + k.item, launch := lbase + k.launch }
  let msgs := fun (dep : Nat) => ((p.inboxes.filter fun q => decide (q.1 = dep)).flatMap (·.2)).map fun (m : Msg) => { m with launch := lbase + m.launch }
  let deps := (p.kernels.map (·.1) ++ p.inboxes.map (·.1)).eraseDups
  let d := { d with
    items := d.items ++ p.items.map (fun i => { i with id := base + i.id }), nextItem := base + top (p.items.map (·.id)),
    carried := d.carried ++ p.carried.map (base + ·),
    launches := d.launches ++ p.launches.map (fun l => { l with serial := lbase + l.serial, item := base + l.item }),
    nextLaunch := lbase + top (p.launches.map (·.serial)),
    depots := deps.foldl (fun m dep => mmod m dep fun q => { q with queue := q.queue ++ mv p.kernels dep, inbox := q.inbox ++ msgs dep }) d.depots,
    porters := p.porters.foldl (fun m q => mset m q.1 (some { q.2 with item := base + q.2.item, src := pas q.2.src, dst := pas q.2.dst })) d.porters,
    rfes := p.rasters.foldl (fun m q => mmod m q.1 fun f => { f with progs := f.progs ++ q.2.map fun g => { g with item := base + g.item } }) d.rfes }
  let d := p.slots.foldl (fun (d : Sled) q => match (d.held t)[q.1]? with
    | some e => d.setSlot e q.2.1 { q.2.2 with item := base + q.2.2.item }
    | none => d) d
  let d := p.rings.foldl (fun (d : Sled) q => match (d.held t)[q.1]? with
    | some e => d.onEng e fun g => if q.2.1 then { g with rqs := mset g.rqs q.2.2.1 q.2.2.2 } else { g with hqs := mset g.hqs q.2.2.1 q.2.2.2 }
    | none => d) d
  let d := p.ages.foldl (fun (d : Sled) q => d.qAge t q.1 q.2) d
  p.threads.foldl (fun (d : Sled) r =>
    let die := r.1
    let e := if (d.ent die r.2.1).st = .none then r.2.1 else ((List.range 4096).find? fun e => decide ((d.ent die e).st = .none)).getD r.2.1
    let v := { r.2.2 with tcb := rebasePa x.sl r.2.2.tcb, ctx := rebasePa x.sl r.2.2.ctx, item := base + r.2.2.item }
    let d := d.setEnt die e v
    if v.st = .ready then d.setList die v.channel (insertBefore (fun a =>
      let o := d.ent die a
      if bit (d.chCfg die v.channel) 0 then decide (v.deadline.toNat < o.deadline.toNat) else decide (v.level < o.level)) e (d.readyList die v.channel))
    else d) d

/-- Read every enabled queue's HEAD and TAIL afresh. -/
def Sled.reopen (x : Ctx) (d : Sled) (t : TenantId) : Sled :=
  (List.range 32).foldl (fun (d : Sled) q => if d.qOn t q then ((d.onQueue t q fun _ => {}).qBit t q 2 false).qOpen x t q else d) d

/-- A new checkpoint (step 4d): the snapshot, and an empty undo log (R390). -/
def Sled.checkpoint (d : Sled) (t : TenantId) : Sled :=
  let d := { d with undo := d.undo.filter fun u => decide (u.tenant ≠ t) }
  d.onTwin t fun w => { w with snap := some (d.snapOf t), full := false, overran := [] }

/-! ### Rollback (R390, R409) -/

/-- Restore the tenant to its checkpoint: discard its cache lines in its MIRROR ranges, restore every logged line, load the snapshot, and take the queues up
from the restored headers. -/
def Sled.rollback (x : Ctx) (d : Sled) (t : TenantId) : Sled :=
  let d := d.forget x t
  let d := (d.cache.map (·.1)).foldl (fun (d : Sled) ln => if d.rangeAt (64 * ln) = some (3, t) then d.dropLine ln else d) d
  let mine := d.undo.filter fun u => decide (u.tenant = t)
  let d := mine.reverse.foldl (fun (d : Sled) u => (d.dropLine u.line).putCellsLine u.line u.data u.poison) d
  let d := { d with undo := d.undo.filter fun u => decide (u.tenant ≠ t) }
  let d := d.onTwin t fun w => { w with backs := [], full := false }
  let d := match (d.twin t).snap with
    | some p => d.loadSnap x t p
    | none => d
  d.reopen x t

/-- The work of one item is discarded with it: threads, rays and probes, kernels, the progress of a RASTER entry, a Porter's run (R79, R219, R282, R341, R374). -/
def Sled.dropItem (x : Ctx) (d : Sled) (id : Nat) : Sled :=
  let d := (d.threads.filter fun r => decide (r.2.2.item = id)).foldl (fun (d : Sled) r =>
    (d.setList r.1 r.2.2.channel ((d.readyList r.1 r.2.2.channel).filter (· ≠ r.2.1))).setEnt r.1 r.2.1 { (default : Entry) with gen := r.2.2.gen }) d
  let d := ((d.dropItemJobs id).dropProg x id).dropLaunches x (fun l => decide (l.item = id)) false
  [0, 1].foldl (fun (d : Sled) k => if ((d.porter k).map (·.item)) = some id then d.setPorter k none else d) d

/-- An overrunning entry of a Mirror tenant ends: its completion word reads ABORTED_OVERRUN, HEAD passes it, and a record of severity error is staged (Table 3.4). -/
def Sled.mirrorOverrun (x : Ctx) (t : TenantId) (d : Sled) (k : Nat × Word32) : Sled :=
  let q := k.1
  let r : FaultRec := { code := 8, sev := 2, source := 2, unit := BitVec.ofNat 16 q, queue := BitVec.ofNat 8 q, entry := k.2, addr := BitVec.ofNat 64 (d.qSlot t q k.2),
                        bellCount := d.count - 1, bellTime := d.time x }
  match d.items.find? fun i => decide (i.tenant = t ∧ i.queue = q ∧ i.entry = k.2) with
  | some i =>
    ({ (d.dropItem x i.id).finish i.id 1 8 with carried := d.carried.filter (· ≠ i.id) }).stageRec t r
  | none =>
    if (k.2 - (d.queue t q).head).toNat < ((d.queue t q).tail - (d.queue t q).head).toNat then
      let b := d.uRead x t true (d.qSlot t q k.2) 64
      match b.2 with
      | .ok bs _ =>
        let e := parseEntry bs
        let i : Item := { id := b.1.nextItem, tenant := t, queue := q, entry := k.2, kind := e.kind, flags := e.flags, cost := e.cost, compl := e.compl, payload := e.payload, st := .finished, status := 1, fault := 8 }
        let d := (b.1.addItem i).onQueue t q fun n => { n with skip := n.skip ++ [k.2] }
        (Sled.qPass x t q 1 d).stageRec t r
      | .fault f => b.1.qFault x t q k.2 f
    else d

/-- Roll the tenant back and end the entries that overran. -/
def Sled.rollOverrun (x : Ctx) (d : Sled) (t : TenantId) (ks : List (Nat × Word32)) : Sled :=
  (ks.foldl (fun d k => d.mirrorOverrun x t k) (d.rollback x t)).onTwin t fun w => { w with overran := [] }

/-! ### Tenants put in force and taken out (R67, R98) -/

/-- The budget of a tick: GTE_BUDGET in force and the work window, 0 meaning the whole window (R74). -/
def Sled.tickBudget (d : Sled) (t : TenantId) : Nat :=
  let w := ((d.r32 .belTickLen).toNat - (d.r32 .belSettle).toNat) / 1000
  let b := (d.ten t).budget.toNat
  if b = 0 then w else min b w

/-- Show a tenant enabled or not: ACTIVE and TNT_ENABLED. -/
def Sled.showActive (d : Sled) (t : TenantId) (b : Bool) : Sled :=
  let d := d.setRegBit .tntStatus 0 b t
  d.w64 .tntEnabled (setBit (d.r64 .tntEnabled) t.val b)

/-- Put a tenant in force with what its registers hold. -/
def Sled.enforce (d : Sled) (t : TenantId) : Sled :=
  let c := d.r32 .tntCtl t
  let d := d.onTen t fun n => { n with mode := BitVec.ofNat 2 (fld c 5 4), root := d.r64 .tntPtroot t, allot := d.r32 .tntAllot t,
                                       budget := d.r32 .gteBudget t, toll := d.r32 .ledToll t, rate := BitVec.ofNat 3 (fld (d.r32 .ledTollCtl t) 2 0) }
  (((d.showActive t true).invalidate t fun _ => true).fitEngines t (fld (d.r32 .tntAllot t) 12 8))

/-- Take a tenant out of service here at once: nothing of it runs, no word of memory is written, its ranges stay as they are, and it is no longer
paired (R393, R416). -/
def Sled.takeOut (x : Ctx) (d : Sled) (t : TenantId) : Sled :=
  let d := ((d.forget x t).fitEngines t 0).showActive t false
  let d := d.setT t false false (d.jfullT t)
  ((d.setRegBit .tntCtl 0 false t).onTen t fun n => { n with allot := 0 }).onTwin t fun w => { w with stopped := true, waiting := false, held := false }

/-! ### Replicas (R387, R388, R398) -/

/-- The bytes of the journal in use: 64 KiB a page (log 48). -/
def Sled.journalUsed (d : Sled) : Nat := d.twins.foldl (fun a p => a + 65536 * p.2.old.length) 0

/-- Restore the pages of an uncommitted send from the journal, newest first. -/
def Sled.unjournal (d : Sled) (t : TenantId) : Sled :=
  let d := (d.twin t).old.reverse.foldl (fun (d : Sled) p => d.pageIn p.1 p.2) d
  d.onTwin t fun w => { w with old := [], newSnap := none }

/-- The frames of a tenant's send under way to a sled are dropped. -/
def State.dropSend (s : State) (dst : SledId) (t : TenantId) : State :=
  { s with mail := s.mail.filter fun m => !(decide (m.dst = .sled dst) && match m.body with
      | .page u _ _ | .snap u _ | .commit u | .resilver u _ _ => decide (u = t)
      | _ => false) }

/-- The home sled's pages of an abandoned send wait for the next one. -/
def Sled.unsend (d : Sled) (t : TenantId) : Sled :=
  d.onTwin t fun w => { w with dirty := (w.sending.getD []) ++ w.dirty.filter (fun p => !(w.sending.getD []).contains p), sending := none, unsent := [], pairing := false }

/-- Count a lag (R387). -/
def Sled.lag (x : Ctx) (d : Sled) (t : TenantId) : Sled := (d.bump32 .twnT t 2).twnRaise x 3

/-- A send of sled `home` is abandoned: the twin restores its pages, LAG advances and STANDBY_LAG is raised on both. -/
def State.abandonSend (s : State) (home : SledId) (t : TenantId) : State :=
  ((s.dropSend (twinOf home) t).onSled home fun x d => (d.unsend t).lag x t).onSled (twinOf home) fun x d => (d.unjournal t).lag x t

/-- A Standby tenant whose replica this sled holds becomes lone here, or is reported lost when the replica is not valid (R388, R398), or where 16 tenants are enabled
already (R67; DESIGN CHOICE, log 117). The admission pass is
that of step 5 where this tick's step 5 has still to come. -/
def State.activate (s : State) (sl : SledId) (t : TenantId) : State :=
  let s := (s.dropSend sl t).onSled sl fun _ d => (d.unjournal t).setKinds t [2] 1
  let d := s.sled sl
  match (d.twin t).replica with
  | none => s.report (.sled sl) (.tenantLost t)
  | some p =>
    if d.jfullT t || !d.slotFree then s.report (.sled sl) (.tenantLost t)
    else s.onSled sl fun x d =>
      let d := d.w32 .tntCtl (setFld (setBit (d.r32 .tntCtl t) 0 true) 5 4 1) t
      let d := ((d.enforce t).forget x t).onTwin t fun _ => {}
      let d := ((d.setRegBit .tntStatus 4 false t).loadSnap x t p).reopen x t
      let d := ((d.setT t false true false).w32 .gteRemain (BitVec.ofNat 32 (d.tickBudget t)) t).checkpoint t
      (if d.bell.admitted then d.gatePass x t d.bell.work else d).twnRaise x 7

/-! ### Lone tenants, and the loss of the Tether (R394, R396, R400) -/

/-- Step 4 has no frame outstanding: settle goes on to step 5, or is done when step 5 has run; a sled that a Stop ends here goes to its end (R422). -/
def Sled.step4Check (d : Sled) : Sled :=
  if d.bell.settle = 7 ∧ !(allTenants.any fun t => (d.twin t).waiting || (d.twin t).sending.isSome) then
    { d with bell := { d.bell with settle := if d.bell.admitted && !d.stopsHere then 6 else 5 } }
  else d

/-- A protected tenant runs lone here from now on (R400). -/
def Sled.goLone (x : Ctx) (d : Sled) (t : TenantId) (roll : Bool) : Sled :=
  let d := if roll && d.mirror t then d.rollback x t else d
  let d := (d.unsend t).onTwin t fun w => { w with waiting := false, held := false, mine := none, theirs := none, firstMiss := none, resilver := none }
  let d := d.setT t false true (d.jfullT t)
  if d.bell.admitted && roll then d.gatePass x t d.bell.work else d

/-- The tenants whose replica this sled holds. -/
def Sled.replicas (d : Sled) : List TenantId :=
  allTenants.filter fun t => !d.active t && ((d.twin t).replica.isSome || !(d.twin t).old.isEmpty || d.jfullT t) && !(d.rangesOf t [2]).isEmpty

/-- The holder of the lease goes on without its twin: protected tenants lone, replicas activated (R396, R398). -/
def State.holderGoesOn (s : State) (sl : SledId) (roll : Bool) : State :=
  let s := s.onSled sl fun x d => (allTenants.filter d.protectedT).foldl (fun (d : Sled) t => d.goLone x t roll) d
  ((s.sled sl).replicas.foldl (fun (s : State) t => s.activate sl t) s).onSled sl fun _ d => d.step4Check

/-- The Tether is lost at this end (R396, R411): the frames under way are lost, which TWN_HWERR of their sender counts (R393), and sends are abandoned, once (R387); only the lease holder goes on; the other sled holds steps 4 and 5 of its protected tenants
until the verdict on the holder's next ACK. -/
def State.tetherLost (s : State) (sl : SledId) : State :=
  let frames := fun (src : SledId) => s.mail.foldl (fun a m => if m.src = .sled src then a + m.tetherFrames else a) 0
  let lost := fun (src : SledId) (d : Sled) => if frames src = 0 then d else d.bump32 .twnHwerr 0 0 (frames src)
  let s := (s.onSled sl fun _ d => lost sl d).onSled (twinOf sl) fun _ d => lost (twinOf sl) d
  let s := (allTenants.filter fun t => ((s.sled sl).twin t).sending.isSome).foldl (fun (s : State) t => s.abandonSend sl t) s
  let s := (allTenants.filter fun t => ((s.sled (twinOf sl)).twin t).sending.isSome).foldl (fun (s : State) t => s.abandonSend (twinOf sl) t) s
  let s := { s with mail := s.mail.filter fun (m : Mail) => !(decide (m.dst = Node.sled sl ∨ m.src = Node.sled sl) && decide (m.tetherFrames ≠ 0)) }
  let s := s.onSled sl fun _ d => allTenants.foldl (fun (d : Sled) t => if (d.twin t).resilver.isSome then d.onTwin t fun w => { w with resilver := none } else d) d
  if (s.sled sl).rackState = 4 ∧ s.rackOf (twinOf sl) = 4 then
    if (s.sled sl).hasLease then s.holderGoesOn sl false
    else
      let s := { s with rack := { s.rack with awaits := mset s.rack.awaits sl (some ((s.sled sl).count + 1)) } }
      s.onSled sl fun _ d => ((allTenants.filter d.protectedT).foldl (fun (d : Sled) t => d.onTwin t fun w => { w with held := true, waiting := false }) d).step4Check
  else s.onSled sl fun _ d => d.step4Check

/-- The verdict on the lease holder (R396): its ACK came, so the other sled stops its protected tenants as a reset does. -/
def State.verdictAlive (s : State) (sl : SledId) : State :=
  let s := { s with rack := { s.rack with awaits := mset s.rack.awaits sl none } }
  (allTenants.filter (s.sled sl).protectedT).foldl (fun (s : State) t =>
    (s.resetTenant sl t).onSled sl fun _ d => ((d.setRegBit .tntCtl 0 false t).setRegBit .tntStatus 4 true t).onTwin t fun w => { w with stopped := true, held := false, waiting := false }) s

/-! ### The digest (R392, R393) -/

/-- The key of the pair as bytes. -/
def Sled.twnKeyBytes (d : Sled) : List Byte := (List.range 8).flatMap fun k => toBytes (d.r32 .twnKey k) 4

/-- D of a tenant for tick `n`, over the lines written back in it, each of which is read with its check (R203). -/
def Sled.digestOf (x : Ctx) (d : Sled) (t : TenantId) (n : Word64) : Sled × Nat :=
  let ls := (d.undo.filter fun u => decide (u.tenant = t)).map (·.line)
  let r := ls.foldl (fun (acc : Sled × Nat) ln =>
    let v := acc.1.rawRead x (64 * ln) 64
    (v.1, acc.2 + kmac256 d.twnKeyBytes (toBytes (BitVec.ofNat 64 ln) 8 ++ [BitVec.ofNat 8 t.val] ++ toBytes n 8 ++ v.2.1) [0x56, 0x4C, 0x31, 0x44])) (d, 0)
  (r.1, r.2 % 2 ^ 256)

/-- Decide a tenant once both digests are known (R393, R409). -/
def State.decideTwin (s : State) (sl : SledId) (t : TenantId) : State :=
  let d := s.sled sl
  let w := d.twin t
  match w.mine, w.theirs with
  | some a, some b =>
    let ended := (a.overran ++ b.overran).eraseDups
    let n := d.count - 1
    let clear := fun (d : Sled) => d.onTwin t fun w => { w with mine := none, theirs := none, waiting := false }
    let again := fun (x : Ctx) (d : Sled) => if d.bell.admitted then d.gatePass x t d.bell.work else d
    let roll := fun (x : Ctx) (d : Sled) => again x ((clear d).rollOverrun x t ended)
    let s :=
      if a.d = b.d then
        (if ended.isEmpty && !a.full && !b.full then s.onSled sl fun _ d => (clear d).checkpoint t else s.onSled sl roll).onSled sl
          fun _ d => d.onTwin t fun w => { w with firstMiss := none }
      else
        let s := s.onSled sl fun x d => (d.bump32 .twnT t 1).twnRaise x 4
        match w.firstMiss with
        | none => s.onSled sl fun x d => (roll x d).onTwin t fun w => { w with firstMiss := some (a.hwerr, b.hwerr) }
        | some m =>
          let mine := decide (m.1 < a.hwerr)
          let theirs := decide (m.2 < b.hwerr)
          let s := s.onSled sl fun _ d => d.onTwin t fun w => { w with firstMiss := none }
          if mine && !theirs then s.onSled sl fun x d => (((clear d).takeOut x t).setRegBit .tntStatus 4 true t).twnRaise x 5
          else if theirs && !mine then
            s.onSled sl fun x d =>
              let d := (clear d).twnRaise x 5
              let d := if ended.isEmpty && !a.full then d.checkpoint t else d.rollOverrun x t ended
              again x (d.setT t false true false)
          else s.onSled sl fun x d =>
            let r : FaultRec := { code := 0x0E, sev := 2, source := 7, detail0 := n, detail1 := BitVec.ofNat 64 a.d }
            (((clear d).setRegBit .tntCtl 1 true t).rollOverrun x t ended).stage x t r
    s.onSled sl fun _ d => d.step4Check
  | _, _ => s

/-! ### Settle step 4 (R386) -/

/-- The tenants that step 4 works for: protected, not being reset, not held (R97, R396). -/
def Sled.step4Tenants (d : Sled) : List TenantId := allTenants.filter fun t => d.protectedT t && !(d.ten t).skip && !(d.twin t).held

/-- 4a: write back every dirty line of the tenant's HOME and MIRROR ranges. -/
def Sled.flushRanges (x : Ctx) (d : Sled) (t : TenantId) : Sled :=
  (d.cache.map (·.1)).foldl (fun (d : Sled) ln => match d.rangeAt (64 * ln) with
    | some (k, u) => if u = t ∧ (k = 1 ∨ k = 3) then d.flushLine x ln else d
    | none => d) d

/-- Show and clear the pages or lines written back in the tick. -/
def Sled.countBacks (d : Sled) (t : TenantId) : Sled := (d.w32 .twnT (BitVec.ofNat 32 (d.twin t).backs.length) t 3).onTwin t fun w => { w with backs := [] }

/-- 4b for a paired Standby tenant: every page not yet committed at the twin, then SNAP, then COMMIT. -/
def State.sendPages (s : State) (sl : SledId) (t : TenantId) (pairing : Bool) : State :=
  let s := s.onSled sl fun _ d => (d.checkpoint t).onTwin t fun w => { w with sending := some w.dirty, unsent := w.dirty, dirty := [], pairing := pairing }
  let w := (s.sled sl).twin t
  let put := fun (b : MailBody) => (⟨.sled sl, .sled (twinOf sl), b⟩ : Mail)
  let r := (s.sled sl).pagesOut (s.ctx sl) (w.sending.getD [])
  { s.setSled sl r.1 with mail := s.mail ++ (r.2.map fun p => put (.page t p.1 p.2)) ++ [put (.snap t (w.snap.getD {})), put (.commit t)] }

/-- 4c for a Mirror tenant: hash, send DIGEST, and wait for the twin's; a lone tenant skips the comparison (R400). -/
def State.mirrorStep (s : State) (sl : SledId) (t : TenantId) : State :=
  let d := s.sled sl
  let w := d.twin t
  if d.loneT t || !d.pairedT t then
    s.onSled sl fun x d => if w.overran.isEmpty && !w.full then d.checkpoint t else d.rollOverrun x t w.overran
  else
    let q := d.digestOf (s.ctx sl) t (d.count - 1)
    let m : DigestMsg := ⟨q.2, w.overran, w.full, (q.1.r32 .twnHwerr).toNat⟩
    let s := (s.setSled sl q.1).onSled sl fun _ d => d.onTwin t fun w => { w with mine := some m, waiting := true }
    if s.linked sl then State.decideTwin { s with mail := s.mail ++ [Mail.mk (.sled sl) (.sled (twinOf sl)) (.digest t m)] } sl t else s

/-- No item of the tenant runs or is carried, and no unit holds work of it (R416). -/
def Sled.quiet (d : Sled) (t : TenantId) : Bool :=
  !(d.items.any fun i => decide (i.tenant = t ∧ i.st ≠ .finished)) && !(d.threads.any fun r => decide (r.2.2.tenant = t ∧ r.2.2.st ≠ .parked ∧ r.2.2.st ≠ .blocked))
    && !((d.held t).any fun e => !(d.eng e).used.isEmpty)

/-- Re-pairing of a lone tenant (R406): copy every protected page, copy again what was written since it was copied, and pair at the boundary that sends the rest. A Mirror
tenant's pairing also waits until nothing of it runs (R416), and for a free slot on the twin (R67). -/
def State.repair (s : State) (sl : SledId) (t : TenantId) : State :=
  let d := s.sled sl
  let w := d.twin t
  let under := s.mail.any fun m => decide (m.src = .sled sl) && match m.body with | .resilver u _ _ => decide (u = t) | _ => false
  let send := fun (s : State) (ps : List Nat) =>
    let r := (s.sled sl).pagesOut (s.ctx sl) ps
    { s.setSled sl r.1 with mail := s.mail ++ r.2.map fun p => (⟨.sled sl, .sled (twinOf sl), .resilver t p.1 p.2⟩ : Mail) }
  if !s.linked sl || decide (d.rackState ≠ 4) || !s.inService (twinOf sl) || ((s.sled (twinOf sl)).rangesOf t [1, 2, 3]).isEmpty then s
  else
    let home := d.mirror t
    let more := (w.resilver.getD [] ++ (if home then w.backs.map fun ln => ln / 1024 else []) ++ w.dirty).eraseDups
    let hold := fun (s : State) (ps : List Nat) => s.onSled sl fun _ d => d.onTwin t fun w => { w with resilver := some ps, dirty := [] }
    let room := (s.sled (twinOf sl)).active t || (s.sled (twinOf sl)).slotFree
    match w.resilver with
    | none => (send s (d.pagesOf t [1, 3])).onSled sl fun _ d => d.onTwin t fun w => { w with resilver := some [], dirty := [] }
    | some _ =>
      let last := if home then d.quiet t && room else decide ((s.sled (twinOf sl)).journalUsed + 65536 * more.length ≤ ((s.sled (twinOf sl)).r64 .twnJournalSize).toNat)
      if under then hold s more
      else if last then (s.onSled sl fun _ d => d.onTwin t fun w => { w with dirty := more, resilver := some [] }).sendPages sl t true
      else hold (send s more) []

/-- Step 4 for one tenant, after 4a. -/
def State.step4For (s : State) (sl : SledId) (t : TenantId) : State :=
  let d := s.sled sl
  let s :=
    if d.mirror t then (if d.loneT t then (s.repair sl t).mirrorStep sl t else s.mirrorStep sl t)
    else if d.pairedT t && !d.jfullT t then (if s.linked sl && decide (d.rackState ≠ 5) then s.sendPages sl t false else s.onSled sl fun _ d => d.checkpoint t)
    else (s.onSled sl fun _ d => d.checkpoint t).repair sl t
  s.onSled sl fun _ d => d.countBacks t

/-- Internal parity errors, and Footpath frames lost beyond retransmission, which no command shows, are a free number that TWN_HWERR counts at the end of 4a (R393, log 105). -/
def Sled.hwFaults (x : Ctx) (d : Sled) : Sled := (d.bump32 .twnHwerr 0 0 (Config.freeNat x.sl.val d.freeCtr)).stepFree

/-- TWIN_SETTLE: settle step 4. -/
def State.twinSettle (s : State) (sl : SledId) : State :=
  if (s.sled sl).bell.settle ≠ 4 then s
  else
    let ts := (s.sled sl).step4Tenants
    let s := s.onSled sl fun x d => if ts.isEmpty then d else (ts.foldl (fun (d : Sled) t => d.flushRanges x t) d).hwFaults x
    let s := ts.foldl (fun (s : State) t => s.step4For sl t) s
    s.onSled sl fun _ d => ({ d with bell := { d.bell with settle := 7 } }).step4Check

def execTwinSettle (sl : SledId) (s : State) : Host.Outcome State Fault Refusal := .next (s.twinSettle sl)

/-! ### Frames of the Tether (R383, R387, R388, R406) -/

/-- Take the oldest frame under way to a node whose body `f` accepts. -/
def State.takeMail {α : Type} (s : State) (dst : Node) (f : Mail → Option α) : State × Option α :=
  match s.mail.find? fun m => decide (m.dst = dst) && (f m).isSome with
  | some m => ({ s with mail := s.mail.erase m }, f m)
  | none => (s, none)

/-- How often a frame was retransmitted before it came whole is a free number, which TWN_RETRY counts (R383, log 105). -/
def Sled.retried (x : Ctx) (d : Sled) : Sled := (d.bump64 .twnRetry 0 0 (Config.freeNat x.sl.val d.freeCtr)).stepFree

/-- Count the bytes of a Tether frame on both ends: header, payload, trailer (Table 12.2), and bits for the ledger. -/
def State.tetherBytes (s : State) (dst : SledId) (t : TenantId) (payload : Nat) : State :=
  let n := payload + 20
  let add := fun (r : Reg) (d : Sled) => d.w64 r (d.r64 r + BitVec.ofNat 64 n)
  (s.onSled dst fun _ d => add .twnRxBytes d).onSled (twinOf dst) fun x d => ({ (add .twnTxBytes d).retried x with tether := { d.tether with sent := x.now } }).tally t.val 11 (8 * n)

/-- A frame came over the Tether: the link is alive (R381). -/
def State.heardTether (s : State) (sl : SledId) : State := s.onSled sl fun x d => { d with tether := { d.tether with heard := x.now } }

/-- The journal has no room for a page: the send ends, and the tenant runs lone until it is re-paired (R388). -/
def State.journalFull (s : State) (sl : SledId) (t : TenantId) : State :=
  let s := s.abandonSend (twinOf sl) t
  let s := s.onSled sl fun _ d => (d.setT t false (d.loneT t) true).onTwin t fun w => { w with replica := none }
  s.onSled (twinOf sl) fun _ d => ((d.setT t false true true).onTwin t fun w => { w with resilver := none }).step4Check

/-- PAGE: journal the old contents and write the page (R387). -/
def State.pageRow (s : State) (sl : SledId) : State :=
  if !s.linked sl then s else
  let m := s.takeMail (.sled sl) fun m => match m.body with | .page t p v => some (t, p, v) | _ => none
  match m.2 with
  | none => s
  | some (t, p, v) =>
    let s := (m.1.heardTether sl).tetherBytes sl t (65536 + 15 * 20)
    let s := s.onSled (twinOf sl) fun _ d => d.onTwin t fun w => { w with unsent := w.unsent.filter (· ≠ p) }
    let d := s.sled sl
    if (s.sled (twinOf sl)).mirror t then s.onSled sl fun _ d => d.pageIn p v
    else if (d.r64 .twnJournalSize).toNat < d.journalUsed + 65536 then s.journalFull sl t
    else s.onSled sl fun x d =>
      let r := d.pageOut x p
      (r.1.onTwin t fun w => { w with old := w.old ++ [(p, r.2)] }).pageIn p v

def execPage (sl : SledId) (s : State) : Host.Outcome State Fault Refusal := .next (s.pageRow sl)

/-- SNAP: the snapshot of the send (R385). -/
def State.snapRow (s : State) (sl : SledId) : State :=
  if !s.linked sl then s else
  let m := s.takeMail (.sled sl) fun m => match m.body with | .snap t p => some (t, p) | _ => none
  match m.2 with
  | none => s
  | some (t, p) => ((m.1.heardTether sl).tetherBytes sl t 4096).onSled sl fun _ d => d.onTwin t fun w => { w with newSnap := some p }

def execSnap (sl : SledId) (s : State) : Host.Outcome State Fault Refusal := .next (s.snapRow sl)

/-- A send commits at the twin: the journal is dropped, and a re-pairing send pairs the tenant (R387, R406, R416). A DRAINING home sled hands a Standby tenant over
with the send of the settle, so that no tick is lost (R405). -/
def State.commitSend (s : State) (sl : SledId) (t : TenantId) : State :=
  let home := twinOf sl
  let pairing := ((s.sled home).twin t).pairing
  let mir := (s.sled home).mirror t
  let s := s.onSled home fun _ d => d.onTwin t fun w => { w with sending := none, unsent := [], pairing := false, resilver := if pairing then none else w.resilver }
  let s := if mir then s else s.onSled sl fun _ d => d.onTwin t fun w => { w with replica := w.newSnap, newSnap := none, old := [] }
  let s :=
    if !pairing then s
    else if mir then
      let s := s.onSled home fun _ d => ((d.setKinds t [1, 2, 3] 3).setT t true false false)
      s.onSled sl fun x d =>
        let snap := ((d.twin t).newSnap).getD {}
        let d := d.setKinds t [1, 2, 3] 3
        let d := (d.w32 .tntCtl (setFld (setBit (d.r32 .tntCtl t) 0 true) 5 4 2) t)
        let d := ((d.enforce t).forget x t).onTwin t fun _ => {}
        let d := (((d.setRegBit .tntStatus 4 false t).loadSnap x t snap).reopen x t).setT t true false false
        let d := (d.checkpoint t).w32 .gteRemain (BitVec.ofNat 32 (d.tickBudget t)) t
        if d.bell.admitted then d.gatePass x t d.bell.work else d
    else
      let s := s.onSled home fun _ d => ((d.setKinds t [1, 2, 3] 1).setT t true false false)
      s.onSled sl fun _ d => (d.setKinds t [1, 2, 3] 2).setT t true false false
  let s := if (s.sled home).rackState = 7 ∧ !mir then (s.onSled home fun x d => d.takeOut x t).activate sl t else s
  s.onSled home fun _ d => d.step4Check

/-- COMMIT: the end of a Standby send, once every page of it has come (R387). -/
def State.commitRow (s : State) (sl : SledId) : State :=
  if !s.linked sl then s else
  let m := s.takeMail (.sled sl) fun m => match m.body with | .commit t => some t | _ => none
  match m.2 with
  | none => s
  | some t =>
    let more := s.mail.any fun m => decide (m.dst = .sled sl) && match m.body with | .page u _ _ | .snap u _ => decide (u = t) | _ => false
    if more then s else ((m.1.heardTether sl).tetherBytes sl t 0).commitSend sl t

def execCommit (sl : SledId) (s : State) : Host.Outcome State Fault Refusal := .next (s.commitRow sl)

/-- DIGEST: the twin's digest, overrun set and TWN_HWERR (R393). -/
def State.digestRow (s : State) (sl : SledId) : State :=
  if !s.linked sl then s else
  let m := s.takeMail (.sled sl) fun m => match m.body with | .digest t v => some (t, v) | _ => none
  match m.2 with
  | none => s
  | some (t, v) =>
    (((m.1.heardTether sl).tetherBytes sl t (64 + 16 * v.overran.length)).onSled sl fun _ d => d.onTwin t fun w => { w with theirs := some v }).decideTwin sl t

def execDigest (sl : SledId) (s : State) : Host.Outcome State Fault Refusal := .next (s.digestRow sl)

/-- RESILVER: a copied page is written; the replica is not valid until the pairing (R388, R406). -/
def State.resilverRow (s : State) (sl : SledId) : State :=
  if !s.linked sl then s else
  let m := s.takeMail (.sled sl) fun m => match m.body with | .resilver t p v => some (t, p, v) | _ => none
  match m.2 with
  | none => s
  | some (t, p, v) =>
    ((m.1.heardTether sl).tetherBytes sl t (65536 + 15 * 20)).onSled sl fun _ d => (d.onTwin t fun w => { w with replica := none }).pageIn p v

def execResilver (sl : SledId) (s : State) : Host.Outcome State Fault Refusal := .next (s.resilverRow sl)

end Sys2Proof.Machine
end

