-- ==== Sys2Proof/Machine/Settle.lean ====
section
/-! DEFINITION. The tick on a sled: its boundary, the settle steps in the order of Table 2.1, and the work window (02_bell.md, 03_tenants.md). -/
namespace Sys2Proof.Machine

/-! ### Tick lengths (R35, R37, R63) -/

/-- A period register with a fraction register is valid (R35). -/
def pairValid (p f : Word32) : Bool :=
  decide (250000 ≤ fld p 27 0 ∧ fld p 27 0 ≤ 200000000 ∧ (fld f 15 0 = 0 ∨ fld f 15 0 < fld f 31 16))
/-- The settle length of a period (R37). -/
def settleLen (period : Nat) : Nat := max 20000 (period / 50)
/-- The accumulator after a boundary, and the ns the fraction adds to the tick that starts (R35). -/
def accStep (acc : Nat) (f : Word32) : Nat × Nat :=
  if fld f 15 0 = 0 then (acc, 0)
  else if fld f 31 16 ≤ acc + fld f 15 0 then (acc + fld f 15 0 - fld f 31 16, 1) else (acc + fld f 15 0, 0)
/-- A correction within 1 % of the period (R43). -/
def clampSlew (e : Int) (period : Nat) : Int := let m : Int := (period / 100 : Nat); if m < e then m else if e < -m then -m else e
/-- The count starts an epoch (R36). -/
def isEpoch (n : Word64) : Bool := decide (n.toNat % 1024 = 0)

/-- The event bits of an enabled event are reported (R53). -/
def State.belRaise (s : State) (n : Node) (k : Nat) : State :=
  match n with
  | .sled sl =>
    let s := s.onSled sl fun x d => { d with cfg := d.cfg.raiseBit x.now .belEvent k }
    if bit ((s.sled sl).r32 .belEventEn) k then s.report n (.bell k) else s
  | .rf b =>
    let s := s.setRf b { s.rf b with cfg := (s.rf b).cfg.raiseBit s.now .belEvent k }
    if bit ((s.rf b).r32 .belEventEn) k then s.report n (.bell k) else s

/-! ### The boundary on a sled -/

/-- What a boundary does to an enabled tenant: R99's settings come in force and the throttle lifts (R87); it lifts for any other tenant too. -/
def Sled.tenantBoundary (d : Sled) (t : TenantId) : Sled :=
  (d.onTen t fun n => { n with budget := d.r32 .gteBudget t, toll := d.r32 .ledToll t, rate := BitVec.ofNat 3 (fld (d.r32 .ledTollCtl t) 2 0), tolledLast := n.tolled, tolled := false }).setRegBit
    .ledStatus 0 false t

/-- RFE_TIME clears at each boundary, and the new presentation stride comes in force (R337, R345). -/
def Sled.rasterBoundary (x : Ctx) (d : Sled) : Sled :=
  let d := (List.range 2).foldl (fun (d : Sled) r =>
    allTenants.foldl (fun (d : Sled) t => d.w32 .rfeTime 0 r t) ((d.rfeCharge x r).onRfe r fun f => { f with since := x.now })) d
  { d with compositor := { d.compositor with stride := d.r32 .rfeCmpStride } }

/-- The generator of a sled at a boundary: the period pair of an epoch is sampled first, then count, time, fraction and slew (R36, R47, R49). A sled
in step follows the generator of the active Rack Factor, whose pair, accumulator and tick length are `lead` (R47; DEDUCED, log 50). -/
def Sled.tickStart (x : Ctx) (d : Sled) (lead : Option (Word32 × Word32 × Nat × Nat)) : Sled × Option Bool :=
  let n := d.count + 1
  let t0 := d.r64 .belTickStart + BitVec.ofNat 64 (d.r32 .belTickLen).toNat
  let pend := isEpoch n && bit (d.r32 .belStatus) 9
  let ok := pairValid (d.r32 .belPeriodNext) (d.r32 .belFracNext)
  let d := if pend && ok then { (d.w32 .belPeriod (d.r32 .belPeriodNext)).w32 .belFrac (d.r32 .belFracNext) with bell := { d.bell with acc := 0 } }
    else if pend then (d.w32 .belPeriodNext (d.r32 .belPeriod)).w32 .belFracNext (d.r32 .belFrac) else d
  let d := if pend then d.setRegBit .belStatus 9 false else d
  let own := accStep d.bell.acc (d.r32 .belFrac)
  let g := lead.getD (d.r32 .belPeriod, d.r32 .belFrac, own.1, (d.r32 .belPeriod).toNat + own.2)
  let period := g.1.toNat
  let base := g.2.2.2
  let most : Int := max 0 ((period + period / 100 + 1 : Nat) - (base : Int))
  let least : Int := min 0 ((period - period / 100 : Nat) - (base : Int))
  let corr := max least (min most d.bell.slew)
  let d := (d.w32 .belPeriod g.1).w32 .belFrac g.2.1
  let d := ((d.w64 .belCount n).w64 .belTickStart t0).w32 .belTickLen (BitVec.ofNat 32 ((base : Int) + corr).toNat)
  let d := d.w32 .belSettle (BitVec.ofNat 32 (settleLen period))
  let b := d.bell
  ({ d with bell := { b with acc := g.2.2.1, slew := b.slew - corr, startedAt := x.now, work := false, settle := 1, admitted := false,
                              workNs := b.workNs + (if b.work then x.now - b.openedAt else 0) } }, if pend then some ok else none)

/-- What a sled in step follows: the generator of the active Rack Factor when it is at the count the sled comes to. -/
def State.lead (s : State) (sl : SledId) : Option (Word32 × Word32 × Nat × Nat) :=
  let r := s.rf s.activeRf
  let d := s.sled sl
  if r.up && r.bell.running && (decide (d.rackState = 4) || decide (d.rackState = 7)) && !d.bell.absent && decide (r.r64 .belCount = d.count + 1) then
    some (r.r32 .belPeriod, r.r32 .belFrac, r.bell.acc, (r.r32 .belTickLen).toNat)
  else none

/-- The copies that a sled's Bell block holds of the active Rack Factor's values (R52), and PCHG_PEND with them. R52 names no copy of BEL_STATUS's other bits, of BEL_PHASE_ERR
and of BEL_REJECTS: a sled's stay as its reset left them (DESIGN CHOICE, log 53). -/
def State.belSync (s : State) (sl : SledId) : State :=
  let r := s.rf s.activeRf
  s.onSled sl fun _ d =>
    let d := ((d.w32 .belPeriodNext (r.r32 .belPeriodNext)).w32 .belFracNext (r.r32 .belFracNext)).w32 .belSrcCtl (r.r32 .belSrcCtl)
    ((d.w64 .belAlign (r.r64 .belAlign)).w32 .belPtp (r.r32 .belPtp)).setRegBit .belStatus 9 (bit (r.r32 .belStatus) 9)

/-- A reset that runs at a boundary makes settle steps 1, 4 and 5 skip its tenant, also where it ends before them (R97). -/
def Sled.latchResets (d : Sled) : Sled :=
  allTenants.foldl (fun (d : Sled) t => if (d.ten t).skip = d.resetBusy t then d else d.onTen t fun n => { n with skip := d.resetBusy t }) d

/-- What every boundary of a sled does besides the generator: sends not committed and comparisons not finished end (R387, R394), settings come in force,
Mirror resets start (R88), and settle opens. -/
def State.boundaryWork (s : State) (sl : SledId) : State :=
  let d := s.sled sl
  let s := (allTenants.filter fun t => (d.twin t).sending.isSome).foldl (fun (s : State) t => s.abandonSend sl t) s
  let s := (allTenants.filter fun t => !((s.sled sl).twin t).old.isEmpty).foldl (fun (s : State) t => s.abandonSend (twinOf sl) t) s
  let s := if allTenants.any fun t => (d.twin t).waiting then s.tetherLost sl else s
  let s := s.onSled sl fun x d =>
    let d := allTenants.foldl (fun (d : Sled) t => if d.active t then d.tenantBoundary t else d.setRegBit .ledStatus 0 false t) (d.rasterBoundary x)
    let w := bit (d.r32 .pwrStatus) 0
    let d := if w then d.bump32 .pwrWarnTicks else d
    { d with power := { d.power with warnCounted := w } }
  let s := (allTenants.filter fun t => ((s.sled sl).ten t).resetPend).foldl (fun (s : State) t => s.resetTenant sl t) s
  s.onSled sl fun _ d => d.latchResets

/-- A boundary of a sled, by its own generator. -/
def State.sledBoundary (s : State) (sl : SledId) : State :=
  let d := s.sled sl
  if !d.bell.running then s
  else
    let s := s.upTo (d.bell.startedAt + (d.r32 .belTickLen).toNat)
    let s := if d.bell.absent && d.bell.work then s.report (.sled sl) .noService else s
    let g := s.lead sl
    let q := (s.sled sl).tickStart (s.ctx sl) g
    let s := s.setSled sl q.1
    let s := if g.isSome then s.belSync sl else s
    let s := match q.2 with
      | some true => s.belRaise (.sled sl) 6
      | some false => s.belRaise (.sled sl) 9
      | none => s
    s.boundaryWork sl

/-! ### Step 1: stop (R79, R96, R219, R243, R282, R341, R374) -/

/-- The item is running for R79: by a thread, by a ray or probe in a pool whatever its threads do, by a kernel that has started, or at a Porter or a Raster Front End. -/
def Sled.stillRuns (d : Sled) (i : Item) : Bool :=
  decide (i.st ≠ .carried)
    && ((d.threads.any fun r => decide (r.2.2.item = i.id ∧ (r.2.2.st = .ready ∨ r.2.2.st = .running)))
      || (d.engines.any fun p => p.2.used.any fun q => decide (q.2.item = i.id))
      || d.kernelsRun i.id
      || (d.porters.any fun p => match p.2 with | some r => decide (r.item = i.id) | none => false)
      || (d.rfes.any fun p => p.2.progs.any fun g => decide (g.item = i.id) && !g.waiting))

/-- Stop one item: it is carried, with a warning for a Solo or Standby tenant; a Mirror tenant's joins the overrun set. A fenced tenant's is carried with neither (R96). -/
def Sled.stopItem (x : Ctx) (d : Sled) (i : Item) : Sled :=
  let d := { (d.pauseKernels x i.id).onItem i.id fun j => { j with st := .carried } with carried := d.carried ++ [i.id] }
  let d := (List.range 2).foldl (fun (d : Sled) r => if (d.rfe r).cur = some i.id then d.rfeLeave x r else d) d
  let d := d.cores.foldl (fun (d : Sled) k =>
    let c : CoreId := Fin.ofNat 96 k.1
    match k.2.entry with
    | some e => if (d.ent (dieOf c) e).item = i.id then d.onCore c fun k => { k with sched := some (match k.sched with | some q => { q with settle := true } | none => ⟨x.now, none, true⟩) } else d
    | none => d) d
  if d.fenced i.tenant then d
  else if d.mirror i.tenant then d.onTwin i.tenant fun w => { w with overran := w.overran ++ [(i.queue, i.entry)] }
  else
    d.stageRec i.tenant { code := 8, sev := 1, source := 2, unit := BitVec.ofNat 16 i.queue, queue := BitVec.ofNat 8 i.queue, entry := i.entry,
                          addr := BitVec.ofNat 64 (d.qSlot i.tenant i.queue i.entry), bellCount := d.count - 1, bellTime := d.time x }

/-- A Mirror tenant's write-back waits for room in the undo log: its items are running (R390). -/
def Sled.logFull (d : Sled) (t : TenantId) : Bool :=
  d.cache.any fun p => match p.2 with
    | some l => l.dirty && decide (d.rangeAt (64 * p.1) = some (3, t)) && !d.canBack p.1
    | none => false

/-- SETTLE_STOP: settle step 1. -/
def State.settleStop (s : State) (sl : SledId) : State :=
  let d := s.sled sl
  if !d.bell.running || decide (d.bell.settle ≠ 1) then s
  else
    let full := allTenants.filter fun t => d.protectedT t && d.mirror t && d.logFull t
    let stops := d.items.filter fun i => !(d.ten i.tenant).skip && (d.stillRuns i || (full.contains i.tenant && decide (i.st ≠ .finished ∧ i.st ≠ .carried)))
    let s := s.onSled sl fun x d => stops.foldl (fun (d : Sled) i => d.stopItem x i) (full.foldl (fun (d : Sled) t => d.onTwin t fun w => { w with full := true }) d)
    let runs := fun (die : Nat) => ((d.porter die).map fun r => stops.any fun i => decide (i.id = r.item)) = some true
    let s := (List.range 2).foldl (fun (s : State) die => if runs die then s.portStop sl die else s) s
    s.onSled sl fun _ d => { d with bell := { d.bell with settle := 2 } }

def execSettleStop (sl : SledId) (s : State) : Host.Outcome State Fault Refusal := .next (s.settleStop sl)

/-! ### Steps 2 and 3 (R82, R86) -/

/-- Every thread stopped at step 1 has left its core. -/
def Sled.stopped (d : Sled) : Bool := !(d.cores.any fun k => (k.2.sched.map (·.settle)).getD false && k.2.entry.isSome && !k.2.halted)

/-- FLOG_FLUSH: settle step 2. -/
def Sled.flogFlush (x : Ctx) (d : Sled) : Sled :=
  if !d.bell.running || decide (d.bell.settle ≠ 2) || !d.stopped then d
  else
    let d := (allTenants.filter fun t => !(d.ten t).staged.isEmpty).foldl (fun (d : Sled) t => d.flushTenant x t) d
    { d with bell := { d.bell with settle := 3 } }

def execFlogFlush (sl : SledId) (s : State) : Host.Outcome State Fault Refusal := .next (s.onSled sl fun x d => d.flogFlush x)

/-- Commit a tenant's ledger: LED_CUR to LED_LAST and LED_TOTAL; the running tick's energy so far becomes LED_CUR (R86). -/
def Sled.ledCommit (d : Sled) (t : TenantId) : Sled :=
  let cur := d.r64 .ledCur t
  let n := d.ten t
  let d := ((d.w64 .ledLast cur t).w64 .ledTotal (d.r64 .ledTotal t + cur) t).w64 .ledCur (BitVec.ofNat 64 n.ledNext) t
  let d := if n.tolledLast then d.w32 .ledStatus (setFld (d.r32 .ledStatus t) 31 16 (min 65535 (fld (d.r32 .ledStatus t) 31 16 + 1))) t else d
  d.onTen t fun n => { n with ledNext := 0, tolledLast := false }

/-- LEDGER_COMMIT: settle step 3. -/
def Sled.ledgerCommit (d : Sled) : Sled :=
  if !d.bell.running || decide (d.bell.settle ≠ 3) then d
  else
    let d := (allTenants.filter d.active).foldl (fun (d : Sled) t => d.ledCommit t) d
    { d with bell := { d.bell with settle := 4 } }

def execLedgerCommit (sl : SledId) (s : State) : Host.Outcome State Fault Refusal := .next (s.onSled sl fun _ d => d.ledgerCommit)

/-! ### Step 5: tenant switches (R67, R98, R416) -/

/-- A protected tenant that starts or changes mode here takes its first checkpoint, its ranges take the KINDs of the mode, and it is lone (R416). -/
def Sled.enterMode (d : Sled) (t : TenantId) : Sled :=
  let m := (d.ten t).mode
  let d := (d.setKinds t [1, 2, 3] (if m = 2 then 3 else 1)).onTwin t fun w => { w with firstMiss := none, resilver := none, sending := none, dirty := [], backs := [], stopped := false }
  (d.setT t false true false).checkpoint t

/-- The tenant's mode changes from `old` to the mode in force (R416). In Solo its ranges read HOME and nothing of them is tracked (DESIGN CHOICE, log 122). -/
def State.switchMode (s : State) (sl : SledId) (t : TenantId) (old : BitVec 2) : State :=
  let d := s.sled sl
  let m := (d.ten t).mode
  let s := if m = 2 ∧ d.compHolder = some t then s.onSled sl fun _ d => d.setRegBit .rfeCmpCtl 0 false else s
  if m = 0 then
    let s := (s.dropSend sl t).dropSend (twinOf sl) t
    let release := fun (d : Sled) => { (d.setKinds t [2, 3] 1).onTwin t fun _ => {} with undo := d.undo.filter fun u => decide (u.tenant ≠ t) }
    let s := s.onSled (twinOf sl) fun _ d => if old = 1 then (release (d.unjournal t)).setT t false false false else d
    s.onSled sl fun x d => if old = 2 && !d.hasLease then (release (d.takeOut x t)).setT t false false false else (release d).setT t false false false
  else if m = 1 ∧ old = 2 then
    if d.hasLease then
      s.onSled sl fun _ d =>
        let both := d.pairedT t
        ((d.setKinds t [3] 1).setT t both (!both) false).checkpoint t
    else
      s.onSled sl fun x d =>
        let snap := (d.twin t).snap
        let d := (d.takeOut x t).setKinds t [3] 2
        ({ d with undo := d.undo.filter fun u => decide (u.tenant ≠ t) }.onTwin t fun _ => { replica := snap, stopped := true }).setT t true false false
  else s.onSled sl fun _ d => d.enterMode t

/-- Open the queues of a tenant whose EN was set before it was enabled (R102, log 110). -/
def Sled.openQueues (x : Ctx) (d : Sled) (t : TenantId) : Sled :=
  (List.range 32).foldl (fun (d : Sled) q => if d.qOn t q && !(d.queue t q).opened && !bit (d.r32 .tntQStatus t q) 2 then d.qOpen x t q else d) d

/-- A protected tenant's allotment is not placed while its twin is absent or out of service: no core and no engine is its own, and its entries wait (R29). -/
def Sled.unplace (d : Sled) (t : TenantId) : Sled :=
  (d.onTen t fun n => { n with allot := 0 }).fitEngines t 0 |>.onTwin t fun w => { w with unplaced := true }

/-- A tenant is enabled at this boundary. LED_TOTAL goes on from the value it kept (R98). -/
def State.enable (s : State) (sl : SledId) (t : TenantId) : State :=
  let s := s.onSled sl fun x d => (((d.enforce t).w64 .ledCur 0 t).onTen t fun n => { n with ledNext := 0, tolled := false, tolledLast := false }).openQueues x t
  let d := s.sled sl
  if (d.ten t).mode = 0 then s.onSled sl fun _ d => d.setT t false false false
  else if d.mirror t && !d.hasLease && (s.sled (twinOf sl)).active t then s.onSled sl fun x d => d.takeOut x t
  else
    let away := !s.inService (twinOf sl)
    s.onSled sl fun _ d => if away then (d.enterMode t).unplace t else d.enterMode t

/-- A tenant is disabled at this boundary (R98). -/
def State.disable (s : State) (sl : SledId) (t : TenantId) : State :=
  (s.abortTenant sl t).onSled sl fun x d =>
    let d := (((d.flushTenant x t).ledCommit t).fitEngines t 0).showActive t false
    let d := (d.onTen t fun n => { n with allot := 0, ledNext := 0 }).setT t false false false
    { d.onTwin t fun _ => {} with undo := d.undo.filter fun u => decide (u.tenant ≠ t) }

/-- The settings of an enabled tenant that change at this boundary: root (R198), allotment (R257) and mode. -/
def State.resettle (s : State) (sl : SledId) (t : TenantId) : State :=
  let d := s.sled sl
  let n := d.ten t
  let c := d.r32 .tntCtl t
  let root := d.r64 .tntPtroot t
  let s := if n.root ≠ root then s.onSled sl fun _ d => (d.onTen t fun n => { n with root := root }).invalidate t fun _ => true else s
  let still := (d.twin t).unplaced && decide (fld c 5 4 ≠ 0) && !s.inService (twinOf sl)
  let s := s.onSled sl fun _ d => d.onTwin t fun w => { w with unplaced := still }
  let s := if !still && n.allot ≠ d.r32 .tntAllot t then s.onSled sl fun _ d => (d.onTen t fun n => { n with allot := d.r32 .tntAllot t }).fitEngines t (fld (d.r32 .tntAllot t) 12 8) else s
  if n.mode.toNat ≠ fld c 5 4 then (s.onSled sl fun _ d => d.onTen t fun n => { n with mode := BitVec.ofNat 2 (fld c 5 4) }).switchMode sl t n.mode
  else s

/-- The Rack Factor places a Standby or Mirror tenant only on a sled whose debug is not open and of which a die has 16 healthy cores (R480, R484). -/
def Sled.places (d : Sled) (t : TenantId) : Bool :=
  decide (fld (d.r32 .tntCtl t) 5 4 = 0) || (!bit (d.r32 .fusDebug) 0 && !bit (d.r32 .service) 9)

/-- Tenant switches: tenants that leave first, then allotments that shrink, then the others, each in ID order (log 49). A tenant whose reset keeps it enabled past its disable may leave no
slot for another, which then waits for a later boundary (R67, log 117). Only a sled in service takes new ones (R401). -/
def State.switches (s : State) (sl : SledId) : State :=
  let wants := fun (s : State) (t : TenantId) => bit ((s.sled sl).r32 .tntCtl t) 0
  let busy := fun (s : State) (t : TenantId) => ((s.sled sl).ten t).skip
  let s := (allTenants.filter fun t => (s.sled sl).active t && !wants s t && !busy s t).foldl (fun (s : State) t => s.disable sl t) s
  let shrinks := fun (s : State) (t : TenantId) => decide (fld ((s.sled sl).r32 .tntAllot t) 12 8 < fld ((s.sled sl).ten t).allot 12 8)
  let live := allTenants.filter fun t => (s.sled sl).active t && !busy s t
  let s := (live.filter (shrinks s)).foldl (fun (s : State) t => s.resettle sl t) s
  let s := live.foldl (fun (s : State) t => s.resettle sl t) s
  (allTenants.filter fun t => !(s.sled sl).active t && wants s t && !busy s t).foldl (fun (s : State) t => if (s.sled sl).slotFree && decide ((s.sled sl).rackState = 4) && (s.sled sl).places t then s.enable sl t else s) s

/-! ### Step 5: refill and admission (R74 to R76, R80) -/

/-- Refill a tenant's budget, and count the ticks its heads have waited. -/
def Sled.refill (d : Sled) (t : TenantId) : Sled :=
  let d := (d.w32 .gteRemain (BitVec.ofNat 32 (d.tickBudget t)) t).w32 .gteAdmitted 0 t
  (List.range 32).foldl (fun (d : Sled) q => if (d.queue t q).atHead then d.qAge t q (min 15 (fld (d.r32 .tntQStatus t q) 15 12 + 1)) else d) d

/-- Re-admit a carried item: its full charge is debited again, down to zero (R80). One that has ended since step 1 (R241) is not run again; a THREAD item without threads goes on with
its rays, probes and kernels alone. -/
def Sled.readmit (x : Ctx) (d : Sled) (id : Nat) : Sled :=
  match d.item id with
  | none => { d with carried := d.carried.filter (· ≠ id) }
  | some i =>
    if i.st ≠ .carried then { d with carried := d.carried.filter (· ≠ id) }
    else if d.gateOpen i.tenant then
      let st : ItemState := if i.kind = 1 ∧ !d.hasThreads id then .finished else .running
      (({ d.onItem id fun j => { j with st := st } with carried := d.carried.filter (· ≠ id) }).debit i.tenant i.charge).resumeKernels x id
    else d

/-- Admit the heads that have waited 4 or more ticks, in queue order (R76). -/
def Sled.agedPass (x : Ctx) (d : Sled) (t : TenantId) : Sled :=
  if !d.gateOpen t then d
  else (d.queueOrder t).foldl (fun (d : Sled) q =>
    if d.qReady t q && decide (4 ≤ fld (d.r32 .tntQStatus t q) 15 12) then (d.admitHead x t q false).1 else d) d

/-- Which heads stand waiting once step 5 is done. -/
def Sled.markHeads (d : Sled) (t : TenantId) : Sled :=
  (List.range 32).foldl (fun (d : Sled) q =>
    let k := d.queue t q
    let b := d.qOn t q && k.opened && decide (k.head ≠ k.tail)
    if k.atHead = b then d else d.onQueue t q fun k => { k with atHead := b }) d

/-- Settle step 5: tenant switches, refill, carried items, aged heads, one pass (R76). A sled that lost the Bell, or that is to stop, admits nothing (R31, R422). -/
def State.step5 (s : State) (sl : SledId) : State :=
  let d := s.sled sl
  if d.bell.absent || d.stopsHere then s
  else
    let s := s.switches sl
    s.onSled sl fun x d =>
      let ts := allTenants.filter fun t => d.active t && !(d.ten t).skip
      let d := ts.foldl (fun (d : Sled) t => d.refill t) d
      let d := d.carried.foldl (fun (d : Sled) id => d.readmit x id) d
      let d := ts.foldl (fun (d : Sled) t => d.agedPass x t) d
      let d := ts.foldl (fun (d : Sled) t => d.gatePass x t false) d
      ts.foldl (fun (d : Sled) t => d.markHeads t) d

/-! ### The end of a sled (R422, R423) -/

/-- The sled is down: everything it held is lost but its fuses and flash, in which a write that it had started may stand undefined (R427). -/
def State.endSled (s : State) (sl : SledId) (dying : Bool) : State :=
  let s := { s with mail := (s.mail.filter fun (m : Mail) => !decide (m.dst = Node.sled sl)) ++ (if dying && !s.isolatedPort sl then [Mail.mk (.sled sl) (.rf s.activeRf) .dying] else []),
                    fabric := s.fabric.filter fun (f : Frame) => decide (f.src ≠ sl ∧ f.dst ≠ sl) }
  let d := (s.sled sl).nvEnd sl
  s.setSled sl { (default : Sled) with ended := true, freeCtr := d.freeCtr, nv := d.nv }

/-- GATE_SETTLE_ADMIT: settle step 5. A sled with Stop at the settle pending sends DYING and ends instead (R422). -/
def State.settleAdmit (s : State) (sl : SledId) : State :=
  let d := s.sled sl
  if !d.bell.running || decide (d.bell.settle ≠ 5) then s
  else if d.stopsHere then s.endSled sl true
  else (s.step5 sl).onSled sl fun _ d => { d with bell := { d.bell with settle := 6, admitted := true } }

def execGateSettleAdmit (sl : SledId) (s : State) : Host.Outcome State Fault Refusal := .next (s.settleAdmit sl)

/-- SETTLE_STEP5_FORCE: step 5 begins 2,000 ns before the end of settle, alongside an earlier step (R39). -/
def State.forceStep5 (s : State) (sl : SledId) : State :=
  let d := s.sled sl
  if !d.bell.running || d.bell.admitted || d.bell.work || decide (d.bell.settle = 5 ∨ d.bell.settle = 6) || d.stopsHere then s
  else
    let s := s.upTo (d.bell.startedAt + (d.r32 .belSettle).toNat - 2000)
    (s.step5 sl).onSled sl fun _ d => { d with bell := { d.bell with admitted := true } }

def execSettleStep5Force (sl : SledId) (s : State) : Host.Outcome State Fault Refusal := .next (s.forceStep5 sl)

/-- Threads whose BELLWAIT count the window satisfies enter their lists in ascending ENTRY order (R245). -/
def Sled.wakeWaiters (x : Ctx) (d : Sled) : Sled :=
  (d.threads.filter fun r => decide (r.2.2.st = .blocked ∧ r.2.2.awaits.toNat ≤ d.count.toNat)).foldl (fun (d : Sled) r => d.enlist x r.1 r.2.1 (d.itemCarried r.2.2.item)) d

/-- WORK_WINDOW_OPEN: the work window starts at the end of settle; step 5 is always complete before it (R37, R39). -/
def State.openWindow (s : State) (sl : SledId) : State :=
  let d := s.sled sl
  if !d.bell.running || d.bell.work || d.bell.absent || (d.stopsHere && !d.bell.admitted) then s
  else
    let s := s.upTo (d.bell.startedAt + (d.r32 .belSettle).toNat)
    let s := if d.bell.admitted then s
      else (s.step5 sl).onSled sl fun _ d => { d with bell := { d.bell with admitted := true, settle := if d.bell.settle = 5 then 6 else d.bell.settle } }
    s.onSled sl fun x d =>
      let rfes := (List.range 2).foldl (fun m r => mmod m r fun f => { f with since := x.now }) d.rfes
      ({ d with bell := { d.bell with work := true, openedAt := x.now }, rfes := rfes }).wakeWaiters x

def execWorkWindowOpen (sl : SledId) (s : State) : Host.Outcome State Fault Refusal := .next (s.openWindow sl)

end Sys2Proof.Machine
end

