-- ==== Sys2Proof/Machine/Fuse.lean ====
section
/-! DEFINITION. The NV Guard, the fuse bank and its programmer, and debug closure (13_power.md R426 to R428, 15_startup.md R478 to R480, R491). -/
namespace Sys2Proof.Machine

/-! ### The NV Guard (R421, R426, R438) -/

/-- Raise a PWR_EVENT bit; an enabled one is reported (Table 13.7). -/
def State.pwrRaise (s : State) (sl : SledId) (k : Nat) : State :=
  let s := s.onSled sl fun x d => { d with cfg := d.cfg.raiseBit x.now .pwrEvent k }
  if bit ((s.sled sl).r32 .pwrEventEn) k then s.report (.sled sl) (.power k) else s

/-- The NV Guard refuses what has not started: Guard holds, or Stop at the settle is pending. -/
def Sled.nvGuard (d : Sled) : Bool := bit (d.r32 .pwrStatus) 1 || bit (d.r32 .pwrStatus) 2
/-- Count a refusal. -/
def State.nvRefuse (s : State) (sl : SledId) : State := (s.onSled sl fun _ d => d.bump32 .pwrNvRefused).pwrRaise sl 5

/-- How a requester learns of a refusal (Table 13.3). A refused event-log flush stays in the Factor's RAM buffer of 64 KiB: what does not fit any more is discarded and counted,
entry by entry (R428). -/
def State.nvTell (s : State) (sl : SledId) : NvWrite → State
  | .ledger => s.onSled sl fun x d => d.enabledTenants.foldl (fun (d : Sled) t => d.stage x t { code := 0x0F, sev := 1, source := 8, detail0 := d.count }) d
  | .eventLog es => (s.report (.sled sl) .logRefused).onSled sl fun _ d => es.foldl (fun (d : Sled) n =>
      { d with boot := if d.boot.logHeld + n ≤ 65536 then { d.boot with logHeld := d.boot.logHeld + n } else { d.boot with logLost := d.boot.logLost + 1 } }) d
  | _ => (s.report (.sled sl) .flashRefused).onSled sl fun _ d => { d with boot := { d.boot with flashRefused := true } }

/-- NV_WRITE_REQUEST: the NV Guard decides at the instant the write would start. -/
def State.nvWrite (s : State) (sl : SledId) (w : NvWrite) : State :=
  let d := s.sled sl
  if d.ended then s
  else if d.nvGuard then (s.nvRefuse sl).nvTell sl w
  else s.onSled sl fun _ d => d.nvDo sl w

def execNvWriteRequest (sl : SledId) (w : NvWrite) (s : State) : Host.Outcome State Fault Refusal := .next (s.nvWrite sl w)

/-- At each epoch boundary the enabled tenants' LED_TOTALs are persisted; a copy that was refused is so tried again (R426, R428). -/
def State.persistLedger (s : State) (sl : SledId) : State := if (s.sled sl).enabledTenants.isEmpty then s else s.nvWrite sl .ledger

/-! ### Rows -/

/-- A fuse row as it is: what manufacture left, and the bits blown since. -/
def Sled.fuseRow (d : Sled) (sl : SledId) (row : Nat) : Word32 := Config.fuses sl.val row ||| mget d.nv.blown row
/-- The bits of a row that may be programmed in the field (Table 15.4). -/
def fieldMask (row : Nat) : Word32 := if row = 48 then 0x7F else if row = 49 ∨ row = 50 ∨ (118 ≤ row ∧ row ≤ 125) then 0xFFFFFFFF else 0
/-- The fused rollback count, by the sensed rows (R478). -/
def Sled.rollbackCount (d : Sled) : Nat := popc (d.r32 .fusRow 49) + popc (d.r32 .fusRow 50)
/-- Debug is closed: a DEBUG_CLOSE bit reads 1 (R480). -/
def Sled.debugClosed (d : Sled) : Bool := decide (fld (d.r32 .fusRow 48) 6 4 ≠ 0)

/-- Closure: OPEN clears, CLOSED shows, and a core held by debug resumes (R480). -/
def Sled.closeDebug (d : Sled) : Sled :=
  if d.debugClosed then
    let d := d.w32 .fusDebug 2
    allCores.foldl (fun (d : Sled) c => if (d.core c).halted then d.onCore c fun k => { k with halted := false } else d) d
  else d

/-- A write of FUS_DEBUG: OPEN, ignored once closed (Table 15.9). -/
def Sled.fusDebugWrite (d : Sled) (v : Word32) : Sled := if d.debugClosed then d else d.w32 .fusDebug (v &&& 1)

/-! ### The programmer (R479) -/

/-- FUS_PROG_STATUS: its code, and the pulses applied. -/
def Sled.fuseStatus (d : Sled) (code : Nat) : Sled := d.w32 .fusProgStatus (setFld (d.r32 .fusProgStatus) 3 0 code)

/-- A bit blows, for good. -/
def Sled.blow (d : Sled) (row k : Nat) : Sled := { d with nv := { d.nv with blown := mset d.nv.blown row (setBit (mget d.nv.blown row) k true) } }

/-- FUS_BOOT shows the fused rollback count (Table 15.9). -/
def Sled.showRollback (d : Sled) : Sled := d.w32 .fusBoot (setFld (d.r32 .fusBoot) 15 8 d.rollbackCount)

/-- A request goes on with its next bit, in the next row after the last of its row; it ends DONE, or VERIFY_FAIL when a bit still reads 0 (R478, R479). -/
def Sled.fuseNext (d : Sled) (q : FuseReq) (bits : List Nat) : Sled :=
  let q := { q with pulses := 0, began := q.began + 10000 }
  match bits, q.more with
  | [], [] => { d.fuseStatus (if q.failed then 5 else 2) with fuse := none }
  | [], more => { d with fuse := some { q with row := q.row + 1, bits := more, more := [] } }
  | bits, _ => { d with fuse := some { q with bits := bits } }

/-- One pulse has ended and its bit is read back; whether it blew is a free value (log 56). A bit that three pulses did not blow is left, and the others are blown (R479). -/
def Sled.fusePulse (x : Ctx) (d : Sled) (q : FuseReq) : Sled :=
  match q.bits with
  | [] => d.fuseNext q []
  | k :: rest =>
    let ok := Config.freeBool x.sl.val d.freeCtr || bit (d.fuseRow x.sl q.row) k
    let d := d.stepFree
    let st := d.r32 .fusProgStatus
    let d := d.w32 .fusProgStatus (setFld st 31 16 (min 65535 (fld st 31 16 + 1)))
    if ok then
      let d := d.blow q.row k
      (((d.w32 .fusRow (d.fuseRow x.sl q.row) q.row).showRollback).closeDebug).fuseNext q rest
    else if 2 ≤ q.pulses then d.fuseNext { q with failed := true } rest
    else { d with fuse := some { q with pulses := q.pulses + 1, began := q.began + 10000 } }

/-- The pulses that have ended by now, 10 µs each; a request is at most 64 bits of 3 pulses. -/
def Sled.fuseRun (x : Ctx) : Nat → Sled → Sled
  | 0, d => d
  | n + 1, d => match d.fuse with
    | some q => if !q.cut && decide (q.began + 10000 ≤ x.now) then fuseRun x n (d.fusePulse x q) else d
    | none => d
/-- Bring the programmer up to the present. -/
def Sled.fuseNow (x : Ctx) (d : Sled) : Sled := d.fuseRun x 192

/-- Guard is entered during a pulse: it is cut short, and its bit is undefined until it is read back (R427, R479). -/
def Sled.fuseCut (x : Ctx) (d : Sled) : Sled :=
  let d := d.fuseNow x
  match d.fuse with
  | none => d
  | some q =>
    let d := match q.bits with
      | k :: _ => if Config.freeBool x.sl.val d.freeCtr then d.stepFree.blow q.row k else d.stepFree
      | [] => d
    { d.fuseStatus 6 with fuse := some { q with cut := true } }

/-- A request: refused while another runs, for a row that is not field-programmable, or under the NV Guard. `more` are bits of the next row that follow. -/
def State.fuseRequest (s : State) (sl : SledId) (row : Nat) (mask : Word32) (more : List Nat) : State :=
  let s := s.onSled sl fun x d => d.fuseNow x
  let d := s.sled sl
  if d.fuse.isSome then s
  else if fieldMask row = 0 ∨ mask &&& ~~~fieldMask row ≠ 0 then s.onSled sl fun _ d => d.fuseStatus 4
  else if d.nvGuard then (s.onSled sl fun _ d => d.fuseStatus 3).nvRefuse sl
  else
    let mask := if row = 48 ∧ mask &&& 0x70 ≠ 0 then mask ||| 0x70 else mask
    let left := mask &&& ~~~d.r32 .fusRow row
    let bits := (List.range 32).filter fun k => bit left k
    s.onSled sl fun x d =>
      if bits.isEmpty then d.w32 .fusProgStatus 2
      else { d.w32 .fusProgStatus 1 with fuse := some { row := row, bits := bits, more := more, began := x.now } }

/-- FUS_PROG.SEND. -/
def State.fuseProgram (s : State) (sl : SledId) : State :=
  let d := s.sled sl
  s.fuseRequest sl (fld (d.r32 .fusProg) 6 0) (d.r32 .fusProgMask) []

def execFuseProgram (_who : Requester) (sl : SledId) (s : State) : Host.Outcome State Fault Refusal := .next (s.fuseProgram sl)

/-- FUSE_RESUME: after Guard, the programmer resumes the same request by itself. -/
def Sled.fuseResume (x : Ctx) (d : Sled) : Sled :=
  match d.fuse with
  | some q => if q.cut && !d.nvGuard then { d.fuseStatus 1 with fuse := some { q with cut := false, began := x.now } } else d
  | none => d

def execFuseResume (sl : SledId) (s : State) : Host.Outcome State Fault Refusal := .next (s.onSled sl fun x d => d.fuseResume x)

/-- At an epoch boundary, an image that has run IN_SERVICE for a whole epoch raises the fused rollback count: the lowest unblown bits, in row 49 and then in row 50 (R478). -/
def State.rollbackFuse (s : State) (sl : SledId) : State :=
  let d := s.sled sl
  match d.boot.since with
  | none => s
  | some n =>
    let need := d.boot.rollback - d.rollbackCount
    if !isEpoch d.count || (d.count - n).toNat < 1024 || need = 0 || d.rackState ≠ 4 then s
    else
      let low := fun (r n : Nat) => ((List.range 32).filter fun k => !bit (d.r32 .fusRow r) k).take n
      let a := low 49 need
      let b := low 50 (need - a.length)
      let mask := fun (ks : List Nat) => BitVec.ofNat 32 (ks.foldl (fun a k => a + 2 ^ k) 0)
      if a.isEmpty then s.fuseRequest sl 50 (mask b) [] else s.fuseRequest sl 49 (mask a) b

end Sys2Proof.Machine
end

