-- ==== Sys2Proof/Machine/Manifest.lean ====
section
/-! DEFINITION. The manifest: the entries a sled reports, their chain in config space, and the intersection a Rack Factor reports (15_startup.md R486 to R489). -/
namespace Sys2Proof.Machine

/-- A field of a manifest body: word, high bit, low bit, and whether it is a bit mask (R489). -/
structure ManField where
  word : Nat
  hi : Nat
  lo : Nat
  mask : Bool := false
deriving DecidableEq, Repr

/-- The fields of each ID (Table 4.12, Table 15.8 and the manifest rules of the chapters). -/
def manFields (id : Nat) : List ManField :=
  match id with
  | 0x01 => [⟨0, 15, 0, false⟩, ⟨0, 31, 16, false⟩, ⟨1, 15, 0, false⟩, ⟨1, 31, 16, false⟩, ⟨2, 15, 0, false⟩, ⟨2, 31, 16, false⟩, ⟨3, 31, 0, true⟩,
      ⟨4, 15, 0, false⟩, ⟨4, 31, 16, false⟩, ⟨5, 15, 0, false⟩, ⟨5, 31, 16, false⟩, ⟨6, 31, 0, false⟩]
  | 0x02 => [⟨0, 31, 0, false⟩, ⟨1, 31, 0, false⟩, ⟨2, 2, 0, true⟩, ⟨2, 15, 8, false⟩]
  | 0x03 => [⟨0, 7, 0, false⟩, ⟨0, 15, 8, false⟩, ⟨0, 23, 16, false⟩, ⟨0, 31, 24, false⟩, ⟨1, 31, 0, false⟩]
  | 0x04 => [⟨0, 7, 0, false⟩, ⟨0, 15, 8, false⟩, ⟨0, 23, 16, false⟩, ⟨1, 15, 0, false⟩, ⟨1, 31, 16, false⟩]
  | 0x05 => [⟨0, 7, 0, false⟩, ⟨0, 15, 8, false⟩, ⟨0, 23, 16, false⟩, ⟨0, 31, 24, false⟩, ⟨1, 7, 0, true⟩, ⟨1, 15, 8, false⟩, ⟨1, 31, 16, false⟩, ⟨2, 31, 0, false⟩]
  | 0x10 => [⟨0, 7, 0, false⟩, ⟨0, 15, 8, false⟩, ⟨0, 23, 16, false⟩, ⟨0, 31, 24, false⟩, ⟨1, 31, 0, false⟩, ⟨2, 15, 0, false⟩, ⟨2, 23, 16, false⟩, ⟨2, 31, 24, false⟩]
  | 0x11 => [⟨0, 7, 0, false⟩, ⟨0, 31, 16, false⟩, ⟨1, 31, 0, false⟩, ⟨2, 7, 0, false⟩, ⟨2, 15, 8, false⟩, ⟨2, 23, 16, false⟩]
  | 0x20 => [⟨0, 7, 0, false⟩, ⟨0, 15, 8, false⟩, ⟨0, 23, 16, true⟩, ⟨1, 15, 0, false⟩, ⟨1, 19, 16, false⟩, ⟨1, 23, 20, false⟩, ⟨2, 15, 0, false⟩]
  | 0x30 => [⟨0, 15, 0, false⟩, ⟨0, 31, 16, false⟩, ⟨1, 7, 0, false⟩, ⟨1, 15, 8, false⟩, ⟨1, 23, 16, false⟩, ⟨1, 31, 24, false⟩, ⟨2, 31, 0, false⟩]
  | 0x40 => [⟨0, 7, 0, false⟩, ⟨0, 15, 8, false⟩, ⟨0, 31, 16, false⟩, ⟨1, 31, 0, false⟩]
  | 0x50 => [⟨0, 7, 0, false⟩, ⟨0, 23, 8, false⟩, ⟨0, 31, 24, false⟩, ⟨1, 15, 0, false⟩, ⟨1, 23, 16, false⟩]
  | 0x60 => [⟨0, 15, 0, false⟩, ⟨0, 31, 16, false⟩, ⟨1, 15, 0, false⟩, ⟨1, 31, 16, false⟩, ⟨2, 15, 0, false⟩, ⟨2, 23, 16, false⟩]
  | 0x70 => [⟨0, 31, 0, false⟩, ⟨1, 31, 0, false⟩, ⟨2, 7, 0, false⟩, ⟨2, 15, 8, false⟩, ⟨2, 23, 16, false⟩]
  | 0x80 => [⟨0, 15, 0, false⟩, ⟨0, 16, 16, true⟩, ⟨0, 17, 17, true⟩, ⟨1, 15, 0, false⟩, ⟨1, 31, 16, false⟩, ⟨2, 6, 0, false⟩, ⟨2, 11, 8, true⟩]
  | 0x90 => [⟨0, 7, 0, false⟩, ⟨0, 15, 8, false⟩, ⟨0, 23, 16, false⟩, ⟨0, 31, 24, false⟩, ⟨1, 31, 0, false⟩]
  | _ => (List.range 251).flatMap fun w => [⟨w, 31, 0, false⟩]

/-- A body of `n` words from the values of an ID's fields, in their order; unnamed bits read zero. -/
def manBody (id n : Nat) (vals : List Nat) : List Word32 :=
  let fs := (manFields id).zip vals
  (List.range n).map fun w => (fs.filter fun p => decide (p.1.word = w)).foldl (fun (a : Word32) p => setFld a p.1.hi p.1.lo p.2) 0

/-- An entry of version 1. -/
def manEntry (id n : Nat) (vals : List Nat) : ManEntry := ⟨BitVec.ofNat 16 id, 1, manBody id n vals⟩

/-- Counts of enabled units. -/
def Units.count {w : Nat} (bad : BitVec w) : Nat := w - popc bad
/-- The cores a sled exposes. -/
def Sled.exposed (d : Sled) : Nat := d.healthyCores
/-- The mask of the pool stacks in use: the lowest g of those not left out (R482). -/
def Sled.poolMask (d : Sled) : Nat := (d.healthyStacks.take d.poolStacks).foldl (fun a k => a + 2 ^ k) 0

/-- The keys that may sign an image: a hash that is not all zeros, and not revoked (R475). -/
def Sled.keysUsable (d : Sled) : Nat :=
  (List.range 4).foldl (fun a k =>
    let zero := (List.range 12).all fun r => decide (d.r32 .fusRow (12 * k + r) = 0)
    if !zero && !bit (d.r32 .fusRow 48) k then a + 2 ^ k else a) 0

/-- The fifteen entries of a sled (R488): counts of enabled units. -/
def Sled.manifest (d : Sled) : List ManEntry :=
  let u := d.units
  [ manEntry 0x01 8 [d.exposed, 0x100, 600, 2400, 2000, 256, 0x7FF, 64, 256, 2048, 4096, 64],
    manEntry 0x02 4 [250000, 200000000, 7, 40],
    manEntry 0x03 4 [16, 32, 64, 6, 65536],
    manEntry 0x04 4 [2 - popc u.dieOff, 8, 64, 4096, 256],
    manEntry 0x05 4 [55, 52, 16, 29, d.poolMask, fld (d.r32 .regSplit) 5 0, 1024, 64 * d.share * d.poolStacks / 2 ^ 30],
    manEntry 0x10 4 [Units.count u.te, 8, 4, 64, 65536, 4096, 64, 64],
    manEntry 0x11 4 [4, 256, 262144, 64, 8, 4],
    manEntry 0x20 4 [Units.count u.rfe, 32, 0x0F, 16384, 4, 6, 65535],
    manEntry 0x30 4 [Units.count u.depot, 256, 16, 8, 16, 8, 8000],
    manEntry 0x40 4 [Units.count u.porter, 64, 64, 268435456],
    manEntry 0x50 4 [16, 112, 8, 256, 4],
    manEntry 0x60 4 [1500, 1350, 400, 600, 2000, 18],
    manEntry 0x70 4 [3000000, 1000000, 64, 18, 4],
    manEntry 0x80 4 [4096, if d.debugClosed then 1 else 0, fld (d.r32 .fusDebug) 0 0, d.boot.fwMajor.toNat, d.boot.fwMinor.toNat, d.rollbackCount, d.keysUsable],
    manEntry 0x90 4 [18, 1, 15, 30, 1] ]

/-- An entry's length in words: the header's four and its body. -/
def manLen (e : ManEntry) : Nat := 4 + e.body.length

/-- The chain in config space from an offset on, as words (Table 15.7). -/
def manWords (at' : Nat) : List ManEntry → List Word32
  | [] => []
  | e :: es =>
    let next := if es.isEmpty then 0 else at' + 4 * manLen e
    [BitVec.ofNat 32 (e.id.toNat + 2 ^ 16 * e.version.toNat + 2 ^ 24 * (manLen e / 4)), BitVec.ofNat 32 next, 0, 0] ++ e.body ++ manWords (at' + 4 * manLen e) es

/-- Lay a manifest out at 0x0000_0100; words beyond it read zero. -/
def CfgSpace.putManifest (c : CfgSpace) (es : List ManEntry) : CfgSpace :=
  let ws := manWords 0x100 es
  (List.range 256).foldl (fun (c : CfgSpace) i => c.w32 .manifest (ws.getD i 0) i) c

/-! ### The rack intersection (R34, R489) -/

/-- A field of several bodies: the AND of a mask, the least of any other. -/
def meetField (f : ManField) (bodies : List (List Word32)) : Nat :=
  let v := fun (b : List Word32) => fld (b.getD f.word 0) f.hi f.lo
  match bodies with
  | [] => 0
  | b :: bs => bs.foldl (fun a c => if f.mask then Nat.land a (v c) else min a (v c)) (v b)

/-- The entry that several sleds' entries of one ID have in common. -/
def meetEntry (es : List ManEntry) : Option ManEntry :=
  match es with
  | [] => none
  | e :: _ =>
    let n := es.foldl (fun a x => min a x.body.length) e.body.length
    let fs := (manFields e.id.toNat).filter fun f => decide (f.word < n)
    let bodies := es.map (·.body)
    let body := (List.range n).map fun w => (fs.filter fun f => decide (f.word = w)).foldl (fun (a : Word32) f => setFld a f.hi f.lo (meetField f bodies)) 0
    some ⟨e.id, es.foldl (fun a x => if x.version.toNat < a.toNat then x.version else a) e.version, body⟩

/-- The intersection of manifests: the IDs that all have. -/
def meetManifests (ms : List (List ManEntry)) : List ManEntry :=
  match ms with
  | [] => []
  | m :: _ => m.filterMap fun e =>
    let es := ms.filterMap fun l => l.find? fun x => decide (x.id = e.id)
    if es.length = ms.length then meetEntry es else none

/-- A field of one manifest, 0 where it lacks the entry. -/
def manValue (m : List ManEntry) (id word hi lo : Nat) : Nat :=
  match m.find? fun e => decide (e.id.toNat = id) with
  | some e => fld (e.body.getD word 0) hi lo
  | none => 0

/-- The manifest of the rack: the intersection, and entry 0x00A0 with the rack totals of the sleds in service (Table 15.8). -/
def rackManifest (ms : List (SledId × List ManEntry)) : List ManEntry :=
  let sum := fun (id word hi lo : Nat) => ms.foldl (fun a p => a + manValue p.2 id word hi lo) 0
  let nst := ms.foldl (fun a p => a + popc (BitVec.ofNat 8 (manValue p.2 0x05 1 7 0))) 0
  let mask := ms.foldl (fun a p => a + 2 ^ p.1.val) 0
  meetManifests (ms.map (·.2)) ++
    [⟨0xA0, 1, [BitVec.ofNat 32 mask, BitVec.ofNat 32 (sum 0x01 0 15 0 + 2 ^ 16 * sum 0x10 0 7 0),
      BitVec.ofNat 32 (sum 0x30 0 15 0 + 2 ^ 16 * sum 0x20 0 7 0 + 64 * 2 ^ 24), BitVec.ofNat 32 nst]⟩]

end Sys2Proof.Machine
end

