-- ==== Sys2Proof/Machine/Serial.lean ====
section
/-! DEFINITION. The console UART of every Factor: characters, FIFOs, flow control, breaks and the dead line (14_courier.md R442 to R453, R462, R464 to R466, R469). -/
namespace Sys2Proof.Machine

/-! ### Nodes -/

/-- The config space of a node. -/
def State.space (s : State) : Node → CfgSpace
  | .sled sl => (s.sled sl).cfg
  | .rf b => (s.rf b).cfg
/-- Change the config space of a node. -/
def State.onSpace (s : State) (n : Node) (f : CfgSpace → CfgSpace) : State :=
  match n with
  | .sled sl => s.onSled sl fun _ d => { d with cfg := f d.cfg }
  | .rf b => let r := s.rf b; s.setRf b { r with cfg := f r.cfg }
/-- The serial interfaces of a node. -/
def State.serial (s : State) : Node → Serial
  | .sled sl => (s.sled sl).serial
  | .rf b => (s.rf b).serial
/-- Change the serial interfaces of a node. -/
def State.onSerial (s : State) (n : Node) (f : Serial → Serial) : State :=
  match n with
  | .sled sl => s.onSled sl fun _ d => { d with serial := f d.serial }
  | .rf b => let r := s.rf b; s.setRf b { r with serial := f r.serial }
/-- Change the console of a node. -/
def State.onConsole (s : State) (n : Node) (f : Console → Console) : State := s.onSerial n fun k => { k with console := f k.console }
/-- Change the Courier block of a node. -/
def State.onCourier (s : State) (n : Node) (f : Courier → Courier) : State := s.onSerial n fun k => { k with courier := f k.courier }
/-- Set a bit of an event register of a node. -/
def State.raiseAt (s : State) (n : Node) (r : Reg) (k : Nat) : State := s.onSpace n fun c => c.raiseBit s.now r k
/-- Advance a 32-bit counter of a node, saturating. -/
def State.bumpAt (s : State) (n : Node) (r : Reg) : State :=
  s.onSpace n fun c => c.w32 r (BitVec.ofNat 32 (min ((c.r32 r).toNat + 1) (2 ^ 32 - 1)))
/-- The free values of a node: where they start. -/
def State.freeAt (s : State) : Node → Nat × Nat
  | .sled sl => (sl.val, (s.sled sl).freeCtr)
  | .rf b => (16 + b.val, (s.rf b).freeCtr)
/-- Count one use of a node's free values. -/
def State.stepFreeAt (s : State) : Node → State
  | .sled sl => s.onSled sl fun _ d => d.stepFree
  | .rf b => let r := s.rf b; s.setRf b { r with freeCtr := r.freeCtr + 1 }
/-- A node is there to act. -/
def State.nodeOn (s : State) : Node → Bool
  | .sled sl => !(s.sled sl).ended
  | .rf _ => true

/-- `bits` bit times in ns at divisor `dv` (R443). -/
def bitTimes (dv bits : Nat) : Nat := 1000 * (bits * dv) / 768

/-! ### Format (Table 14.5) -/

/-- The console's data bits, and whether a parity bit follows. -/
def CfgSpace.dbits (c : CfgSpace) : Nat := fld (c.r32 .cslFmt) 3 0
def CfgSpace.parity (c : CfgSpace) : Nat := fld (c.r32 .cslFmt) 6 4
/-- Half bit times of a console character on the line. -/
def CfgSpace.charHalves (c : CfgSpace) : Nat :=
  2 * (1 + c.dbits + (if c.parity = 0 then 0 else 1)) + 2 + fld (c.r32 .cslFmt) 9 8
/-- The bits that a break reads low: start, data, parity and the first stop bit. -/
def CfgSpace.charBits (c : CfgSpace) : Nat := 2 + c.dbits + (if c.parity = 0 then 0 else 1)

/-- The parity bit that the format gives for data with `ones` ones. -/
def parityBit (mode ones : Nat) : Bool :=
  match mode with
  | 1 => decide (ones % 2 = 1)
  | 2 => decide (ones % 2 = 0)
  | 3 => true
  | _ => false

/-- The levels of a character on the line in half bit times: start, data with the least significant bit first, parity, stop (R442). -/
def CfgSpace.charLine (c : CfgSpace) (e : BitVec 9) : List Bool :=
  let data := (List.range c.dbits).map fun k => bit e k
  let par := if c.parity = 0 then [] else [parityBit c.parity (data.countP id)]
  ([false] ++ data ++ par).flatMap (fun b => [b, b]) ++ List.replicate (2 + fld (c.r32 .cslFmt) 9 8) true

/-- What a receiver reads of a character: its data bits, the parity bit (low without one), the first stop bit. -/
structure Sampled where
  data : List Bool
  par : Bool
  stop : Bool
deriving DecidableEq, Repr

/-- The samples of a character from the first low one on, of which one not given reads high: bit k is read from sample 16k + 8 alone, and a candidate that is high again at sample 8
is discarded (R444). -/
def sampleChar (dbits : Nat) (parity : Bool) (samples : List Bool) : Option Sampled :=
  let at' := fun (k : Nat) => samples.getD (16 * k + 8) true
  if samples.getD 0 true || at' 0 then none
  else some ⟨(List.range dbits).map fun k => at' (1 + k), parity && at' (1 + dbits), at' (1 + dbits + if parity then 1 else 0)⟩

/-- A break candidate: every bit reads low, and so does the first stop bit (R446). -/
def Sampled.isBreak (c : Sampled) : Bool := !c.data.any id && !c.par && !c.stop
/-- The number that the data bits spell. -/
def Sampled.value (c : Sampled) : Nat := (List.range c.data.length).foldl (fun a k => a + if c.data.getD k false then 2 ^ k else 0) 0

/-! ### Flow control and levels (R450, R469) -/

/-- RTS after a change of level or setting. -/
def State.consoleRts (s : State) (n : Node) : State :=
  let c := s.space n
  let v := c.r32 .cslCtl
  let t := c.r32 .cslRts
  s.onConsole n fun k =>
    let lvl := k.rx.length
    { k with rtsOff :=
        if !bit v 1 then true
        else if !bit v 2 then false
        else if fld t 6 0 ≤ lvl then true
        else if lvl ≤ fld t 14 8 then false
        else k.rtsOff }

/-- TX_EMPTY is raised once the FIFO and the line are idle. -/
def State.consoleIdle (s : State) (n : Node) : State :=
  let k := (s.serial n).console
  if k.drain && k.tx.isEmpty && k.brkAt.isNone && decide (k.busyTill ≤ s.now ∧ k.brkTill ≤ s.now) then
    (s.onConsole n fun k => { k with drain := false }).raiseAt n .cslEvent 8
  else s

/-- Bring the transmitter up to the present: a break that was asked for begins once the character in progress has completed, with what CSL_DIV and CSL_BRKLEN hold then
(R452), and TX_EMPTY is raised. -/
def State.consoleNow (s : State) (n : Node) : State :=
  let c := s.space n
  let s := match (s.serial n).console.brkAt with
    | some t => if t ≤ s.now then
        s.onConsole n fun k => { k with brkAt := none, brkTill := t + bitTimes (fld (c.r32 .cslDiv) 19 0) (max 13 (fld (c.r32 .cslBrklen) 15 0) + 1) }
      else s
    | none => s
  s.consoleIdle n

/-- CSL_STATUS as it reads now (Table 14.7). RX_LINE, the present level of a line that others drive, is a free value (log 54). -/
def State.cslStatus (s : State) (n : Node) : Word32 :=
  let k := (s.serial n).console
  let b := fun (v : Bool) (i : Nat) => if v then 2 ^ i else 0
  BitVec.ofNat 32 (k.rx.length + 256 * k.tx.length + b (decide (s.now < k.busyTill ∨ s.now < k.brkTill)) 16 + b k.cts 17 + b (!k.rtsOff) 18 + b k.dead 19
    + b (Config.freeBool (s.freeAt n).1 (s.freeAt n).2) 20 + b (decide (s.now < k.brkTill)) 21 + b k.cfgBad 22)

/-! ### Receiving (R444 to R446, R449) -/

/-- Store an entry in the RX FIFO, or drop it with an overrun when the FIFO is full; its events are raised either way for a break (R465). -/
def State.rxPush (s : State) (n : Node) (e : Word32) : State :=
  let brk := bit e 11
  let s := if brk then s.raiseAt n .cslEvent 3 else s
  if 64 ≤ (s.serial n).console.rx.length then (s.bumpAt n .cslOverruns).raiseAt n .cslEvent 0
  else
    let s := s.onConsole n fun k => { k with rx := k.rx ++ [e] }
    let s := if bit e 10 then s.raiseAt n .cslEvent 2 else s
    let s := if bit e 9 then s.raiseAt n .cslEvent 1 else s
    s.consoleRts n

/-- The receiver takes characters: enabled, and the line not dead. -/
def State.rxOn (s : State) (n : Node) : Bool := s.nodeOn n && bit ((s.space n).r32 .cslCtl) 1 && !(s.serial n).console.dead

/-- CONSOLE_RX_CHARACTER: a character is read from its samples and stored with its flags; a break candidate is not (R444 to R446). -/
def State.consoleRx (s : State) (n : Node) (samples : List Bool) : State :=
  let c := s.space n
  if !s.rxOn n then s
  else match sampleChar c.dbits (decide (c.parity ≠ 0)) samples with
    | none => s
    | some ch =>
      if ch.isBreak then s
      else
        let pe := decide (c.parity ≠ 0 ∧ ch.par ≠ parityBit c.parity (ch.data.countP id))
        s.rxPush n (BitVec.ofNat 32 (ch.value + (if pe then 2 ^ 9 else 0) + (if ch.stop then 0 else 2 ^ 10)))

def execConsoleRxCharacter (n : Node) (samples : List Bool) (s : State) : Host.Outcome State Fault Refusal := .next (s.consoleRx n samples)

/-- RX_BREAK: the line returns high `bits` bit times after a break began (R446). -/
def State.rxBreak (s : State) (n : Node) (bits : Nat) : State :=
  if !s.rxOn n || decide (bits + 1 < (s.space n).charBits ∨ 65535 < bits) then s
  else s.rxPush n (BitVec.ofNat 32 (2 ^ 11 + 2 ^ 16 * bits))

def execRxBreak (n : Node) (bits : Nat) (s : State) : Host.Outcome State Fault Refusal := .next (s.rxBreak n bits)

/-- CSL_RXDATA: pop an entry with VALID, or read zero (Table 14.6). -/
def State.rxdataRead (s : State) (n : Node) : State × Word32 :=
  match (s.serial n).console.rx with
  | [] => (s, 0)
  | e :: r => ((s.onConsole n fun k => { k with rx := r }).consoleRts n, setBit e 12 true)

def execCslRxdataRead (_who : Requester) (n : Node) (s : State) : Host.Outcome State Fault Refusal :=
  let r := s.rxdataRead n
  .next { r.1 with reply := .val (r.2.zeroExtend 64) }

def execRxflush (_who : Requester) (n : Node) (s : State) : Host.Outcome State Fault Refusal :=
  .next ((s.onConsole n fun k => { k with rx := [] }).consoleRts n)

/-! ### Sending (R449, R451, R452) -/

/-- CSL_TXDATA: a character is queued, or refused. -/
def State.txdataWrite (s : State) (n : Node) (v : Word32) : State :=
  if 64 ≤ (s.serial n).console.tx.length then (s.bumpAt n .cslTxref).raiseAt n .cslEvent 7
  else s.onConsole n fun k => { k with tx := k.tx ++ [v.truncate 9] }

def execCslTxdataWrite (_who : Requester) (n : Node) (v : Word32) (s : State) : Host.Outcome State Fault Refusal := .next (s.txdataWrite n v)

/-- TX_CHARACTER_START: the transmitter, idle again, samples CTS and starts the next character in the format that holds now (R442, R451, R462); bits above DBITS do not go out. -/
def State.txStart (s : State) (n : Node) (cts : Bool) : State :=
  let some' := !(s.serial n).console.tx.isEmpty
  let s := State.consoleNow (if some' then s.upTo (s.serial n).console.busyTill else s) n
  let s := (State.consoleNow (if some' then s.upTo (s.serial n).console.brkTill else s) n).onConsole n fun k => { k with cts := cts }
  let c := s.space n
  let v := c.r32 .cslCtl
  match (s.serial n).console.tx with
  | [] => s
  | e :: r =>
    if !s.nodeOn n || !bit v 0 || (bit v 3 && !cts) then s
    else s.onConsole n fun k => { k with tx := r, sent := c.charLine e, drain := true, busyTill := s.now + bitTimes (fld (c.r32 .cslDiv) 19 0) c.charHalves / 2 }

def execTxCharacterStart (n : Node) (cts : Bool) (s : State) : Host.Outcome State Fault Refusal := .next (s.txStart n cts)

/-- SEND_BRK: after the character in progress, BRKLEN bit times low (13 at least) and 1 high; ignored while a break is being sent or waits to be. -/
def State.sendBrk (s : State) (n : Node) : State :=
  let s := s.consoleNow n
  let k := (s.serial n).console
  if s.now < k.brkTill ∨ k.brkAt.isSome then s
  else (s.onConsole n fun k => { k with drain := true, brkAt := some (max s.now k.busyTill) }).consoleNow n

def execSendBrk (_who : Requester) (n : Node) (s : State) : Host.Outcome State Fault Refusal := .next (s.sendBrk n)

def execTxflush (_who : Requester) (n : Node) (s : State) : Host.Outcome State Fault Refusal := .next (s.onConsole n fun k => { k with tx := [] })

/-! ### Formats (R462, R469) -/

/-- A format write that the check accepts; the others change nothing and set CFG_BAD. -/
def State.cslAccept (s : State) (n : Node) (r : Reg) (v : Word32) (ok : Bool) : State :=
  let s := (s.consoleNow n).onConsole n fun k => { k with cfgBad := !ok }
  if ok then s.onSpace n fun c => c.w32 r v else s

def State.cslFmtWrite (s : State) (n : Node) (v : Word32) : State :=
  s.cslAccept n .cslFmt (v &&& 0x37F) (decide (fld v 9 8 ≠ 3 ∧ fld v 6 4 ≤ 4 ∧ 5 ≤ fld v 3 0 ∧ fld v 3 0 ≤ 9))
def execCslFmtWrite (_who : Requester) (n : Node) (v : Word32) (s : State) : Host.Outcome State Fault Refusal := .next (s.cslFmtWrite n v)

def State.cslDivWrite (s : State) (n : Node) (v : Word32) : State := s.cslAccept n .cslDiv (v &&& 0xFFFFF) (decide (256 ≤ fld v 19 0))
def execCslDivWrite (_who : Requester) (n : Node) (v : Word32) (s : State) : Host.Outcome State Fault Refusal := .next (s.cslDivWrite n v)

/-- CSL_RTS: LO below HI, and HI at most 64; RTS follows at once (R469). -/
def State.cslRtsWrite (s : State) (n : Node) (v : Word32) : State :=
  (s.cslAccept n .cslRts (v &&& 0x7F7F) (decide (fld v 14 8 < fld v 6 0 ∧ fld v 6 0 ≤ 64))).consoleRts n
def execCslRtsWrite (_who : Requester) (n : Node) (v : Word32) (s : State) : Host.Outcome State Fault Refusal := .next (s.cslRtsWrite n v)

/-- A write of CSL_CTL: enables, and the flush and break bits. -/
def State.cslCtlWrite (s : State) (n : Node) (v : Word32) : State :=
  let s := (s.consoleNow n).onSpace n fun c => c.w32 .cslCtl (v &&& 0x1F)
  let s := if bit v 10 then s.onConsole n fun k => { k with rx := [] } else s
  let s := if bit v 9 then s.onConsole n fun k => { k with tx := [] } else s
  let s := if bit v 8 then s.sendBrk n else s
  s.consoleRts n

/-! ### Dead lines and wake, on either line (R447, R448, R453, R466) -/

/-- LINE_DEAD of a line of a node. -/
def State.lineDead (s : State) (n : Node) : SerialLine → Bool
  | .console => (s.serial n).console.dead
  | .courier => (s.serial n).courier.dead
/-- Set LINE_DEAD, and the event of the change. A frame being received on the Courier line is abandoned (R467). -/
def State.setDead (s : State) (n : Node) (line : SerialLine) (b : Bool) : State :=
  match line with
  | .console => (s.onConsole n fun k => { k with dead := b }).raiseAt n .cslEvent (if b then 4 else 5)
  | .courier => (s.onCourier n fun k => { k with dead := b, partRx := [], idleFrom := s.now }).raiseAt n .curEvent (if b then 4 else 5)

/-- LINE_DEAD_ON: a low period beyond 65,535 bit times. -/
def State.deadOn (s : State) (n : Node) (line : SerialLine) : State :=
  let on := match line with | .console => bit ((s.space n).r32 .cslCtl) 1 | .courier => bit ((s.space n).r32 .curCtl) 0
  if !s.nodeOn n || !on || s.lineDead n line then s else (s.setDead n line true).report n (.lineDead line)

def execLineDeadOn (n : Node) (line : SerialLine) (s : State) : Host.Outcome State Fault Refusal := .next (s.deadOn n line)

/-- LINE_DEAD_OFF: 16 bit times of high line. -/
def State.deadOff (s : State) (n : Node) (line : SerialLine) : State :=
  if !s.nodeOn n || !s.lineDead n line then s else (s.setDead n line false).report n (.lineLive line)

def execLineDeadOff (n : Node) (line : SerialLine) (s : State) : Host.Outcome State Fault Refusal := .next (s.deadOff n line)

/-- WAKE: a start edge on a sleeping receiver; its character is lost (R453, log 55). -/
def State.wakeEdge (s : State) (n : Node) (line : SerialLine) : State :=
  if !s.nodeOn n || s.lineDead n line then s
  else match line with
    | .console => if bit ((s.space n).r32 .cslCtl) 4 then (s.bumpAt n .cslWakeLost).raiseAt n .cslEvent 6 else s
    | .courier => if bit ((s.space n).r32 .curCtl) 1 then (s.bumpAt n .curWakeLost).raiseAt n .curEvent 3 else s

def execWake (n : Node) (line : SerialLine) (s : State) : Host.Outcome State Fault Refusal := .next (s.wakeEdge n line)

end Sys2Proof.Machine
end

