-- ==== Sys2Proof/Machine/Courier.lean ====
section
/-! DEFINITION. The Courier line: frames, read-back and backoff, the answers of the hardware, and the isolation of a faulty sled (14_courier.md R454 to R461, R467, R470). -/
namespace Sys2Proof.Machine

/-- The Courier node ID (Table 12.2). -/
def courierId : Node → Nat
  | .sled sl => sl.val
  | .rf b => 30 + b.val

/-- CRC of Table 14.1: polynomial 0x1021, initial 0xFFFF, bits most significant first, no inversion. -/
def crc16 (bs : List Byte) : BitVec 16 :=
  bs.foldl (fun a b => (List.range 8).foldl (fun (a : BitVec 16) _ => if a.msb then (a <<< (1 : Nat)) ^^^ 0x1021 else a <<< (1 : Nat)) (a ^^^ ((b.zeroExtend 16 : BitVec 16) <<< (8 : Nat)))) 0xFFFF

/-- The bytes of a frame on the line: PRE, SOF, SRC, the frame from DST on, CRC low byte first. -/
def lineBytes (src : Nat) (f : List Byte) : List Byte :=
  let body := BitVec.ofNat 8 src :: f
  [0x55, 0x7E] ++ body ++ toBytes (crc16 body) 2

/-- A frame's bytes from DST on. -/
def frameTail (f : CourierFrame) : List Byte := [f.dst, f.type, f.seq, BitVec.ofNat 8 f.payload.length] ++ f.payload

/-- One bit time of the line in ns for a node. -/
def State.curBits (s : State) (n : Node) (k : Nat) : Nat := bitTimes (fld ((s.space n).r32 .curDiv) 19 0) k
/-- The tap is enabled. -/
def State.curOn (s : State) (n : Node) : Bool := s.nodeOn n && bit ((s.space n).r32 .curCtl) 0
/-- The isolation switch of a sled is open: its driver and its receiver are off the rack line (R461). -/
def State.switchOpen (s : State) : Node → Bool
  | .sled sl => bit ((s.rf s.activeRf).r32 .curRkIso) sl.val
  | .rf _ => false
/-- The nodes of the line (Table 12.2). -/
def allNodes : List Node := (List.range 16).map (fun k => Node.sled (Fin.ofNat 16 k)) ++ [.rf 0, .rf 1]

/-- CUR_STATUS as it reads now (Table 14.8). LINE, the present level of a line that others drive too, is a free value (log 54). -/
def State.curStatus (s : State) (n : Node) : Word32 :=
  let k := (s.serial n).courier
  let b := fun (v : Bool) (i : Nat) => if v then 2 ^ i else 0
  BitVec.ofNat 32 (b k.dead 0 + b (Config.freeBool (s.freeAt n).1 (s.freeAt n).2) 1 + b (decide (s.now < k.busyTill)) 2 + b k.driveFail 3 + b (!k.tx.isEmpty) 4
    + 2 ^ 16 * k.full.toNat + 2 ^ 24 * courierId n)

/-! ### Sending (R454 to R456, R459) -/

/-- SEND: queue the frame in CUR_TXBUF; ignored while TX_PEND is set. -/
def State.curSend (s : State) (n : Node) : State :=
  if !(s.serial n).courier.tx.isEmpty then s
  else
    let bs := (List.range 16).flatMap fun i => toBytes ((s.space n).r32 .curTxbuf i) 4
    let len := (bs.getD 3 0).toNat
    s.onCourier n fun k => { k with tx := [{ bytes := bs.take (4 + min len 60) }] }

/-- Drop the frame or the response at the head. -/
def Courier.drop (k : Courier) (resp : Bool) : Courier := if resp then { k with resp := k.resp.tail } else { k with tx := k.tx.tail }
/-- Change the frame or the response at the head. -/
def Courier.onHead (k : Courier) (resp : Bool) (f : CurTx → CurTx) : Courier :=
  let g := fun (l : List CurTx) => match l with | [] => [] | h :: t => f h :: t
  if resp then { k with resp := g k.resp } else { k with tx := g k.tx }
/-- Drop the frame at the head. -/
def State.curDrop (s : State) (n : Node) : State := s.onCourier n fun k => k.drop false

/-- A frame has ended on the line: a unicast EVENT waits for its ACK, others are done (R459). -/
def State.curEnd (s : State) (n : Node) : State :=
  let k := (s.serial n).courier
  match k.driving with
  | none => s
  | some true => s.onCourier n fun k => { k.drop true with driving := none }
  | some false =>
    let f : CurTx := k.tx.headD { bytes := [] }
    let event := decide (f.bytes.getD 1 0 = 3 ∧ f.bytes.getD 0 0 ≠ 0xFF)
    let s := s.onCourier n fun k => { k with driving := none }
    if event then s.onCourier n fun k => k.onHead false fun f => { f with tries := f.tries + 1, waitsFrom := some k.busyTill }
    else (s.curDrop n).raiseAt n .curEvent 0
/-- Bring a node's sending up to the present. -/
def State.curNow (s : State) (n : Node) : State :=
  let k := (s.serial n).courier
  if k.driving.isSome && decide (k.busyTill ≤ s.now) then s.curEnd n else s
/-- The frame that a node is driving comes to its end first. -/
def State.curIdle (s : State) (n : Node) : State := (s.upTo (s.serial n).courier.busyTill).curNow n

def execSend (_who : Requester) (n : Node) (s : State) : Host.Outcome State Fault Refusal := .next ((s.curNow n).curSend n)

/-- The line is low at times until `t`: every node on it starts its idle count afresh (R454). A node behind an open switch hears itself only. -/
def State.lineBusy (s : State) (n : Node) (t : Nat) : State :=
  let hears := fun (k : Node) => decide (k = n) || (!s.switchOpen n && !s.switchOpen k)
  allNodes.foldl (fun (s : State) k => if hears k then s.onCourier k fun c => { c with idleFrom := max c.idleFrom t } else s) s

/-- The backoff LFSR: one shift under x^16 + x^14 + x^13 + x^11 + 1 (R456; the direction of the shift is a DESIGN CHOICE, log 104). -/
def lfsrShift (l : BitVec 16) : BitVec 16 :=
  let b := bit l 0 ^^ bit l 2 ^^ bit l 3 ^^ bit l 5
  setBit (l >>> (1 : Nat)) 15 b
/-- The LFSR after `k` shifts. -/
def lfsrNext : Nat → BitVec 16 → BitVec 16
  | 0, l => l
  | k + 1, l => lfsrNext k (lfsrShift l)

/-- A collision: the backoff is drawn from the LFSR, and the 16th drops the frame (R455, R456). How many shifts a draw takes and what it reads of the register are free values. -/
def State.collide (s : State) (n : Node) (resp : Bool) (f : CurTx) : State :=
  let s := s.bumpAt n .curCollisions
  let c := f.collisions + 1
  if 16 ≤ c then ((s.onCourier n fun k => k.drop resp).bumpAt n .curTxAbort).raiseAt n .curEvent 1
  else s.onCourier n fun k =>
    let l := lfsrNext Config.lfsrShifts (if k.lfsr = 0 then BitVec.ofNat 16 (0x9E37 * (courierId n + 1)) else k.lfsr)
    { k.onHead resp fun f => { f with collisions := c, backoff := Config.lfsrDraw l % 2 ^ min c 6 } with lfsr := l, idleFrom := s.now }

/-- A frame goes out whole. The 100 µs of a PING of the active Rack Factor to a sled (R398), and of the standby's to the active one (R403), count from its end (R459). -/
def State.curSent (s : State) (n : Node) (resp : Bool) (f : CurTx) : State :=
  let bs := lineBytes (courierId n) f.bytes
  let t := s.now + s.curBits n (10 * bs.length)
  let s := (s.onCourier n fun k => { k with sent := bs, busyTill := t, driving := some resp }).lineBusy n t
  let dst := (f.bytes.getD 0 0).toNat
  let ping := decide (f.bytes.getD 1 0 = 1)
  let a := s.activeRf
  if !ping then s
  else match n with
    | .sled _ => s
    | .rf b =>
      if b = a ∧ dst < 16 then { s with rack := { s.rack with pings := mset s.rack.pings dst (some t) } }
      else if b ≠ a ∧ dst = 30 + a.val ∧ (s.rf b).asked then s.setRf b { s.rf b with askedEnd := some t }
      else s

/-- A driver fault: the node abandons the frame and sends no further one, a response it owes included, until DRIVE_CLR (R455). -/
def State.driveFault (s : State) (n : Node) (resp : Bool) : State :=
  ((s.onCourier n fun k => { k.drop resp with resp := [], driveFail := true, idleFrom := s.now }).raiseAt n .curEvent 6).report n .courierDrive

/-- A node begins a frame and reads it back (R455). -/
def State.curTry (s : State) (n : Node) (resp : Bool) (f : CurTx) (rb : Readback) : State :=
  match rb with
  | .isOk => s.curSent n resp f
  | .collision => s.collide n resp f
  | .driveFail => s.driveFault n resp

/-- COURIER_FRAME_START: after the idle wait, 12 bit times and the backoff, the node sends its frame and reads it back. A response that the hardware owes goes
first, 4 bit times after the frame it answers; one that collided waits like any frame (R454 to R456). -/
def State.curStart (s : State) (n : Node) (rb : Readback) : State :=
  let s := s.curIdle n
  let k := (s.serial n).courier
  if !s.curOn n || k.dead || k.driveFail then s
  else match k.resp with
    | r :: _ => (s.upTo (k.idleFrom + s.curBits n (if r.collisions = 0 then 4 else 12 + 10 * r.backoff))).curTry n true r rb
    | [] => match k.tx with
      | [] => s
      | f :: _ => if f.waitsFrom.isSome then s else (s.upTo (k.idleFrom + s.curBits n (12 + 10 * f.backoff))).curTry n false f rb

def execCourierFrameStart (n : Node) (rb : Readback) (s : State) : Host.Outcome State Fault Refusal := .next (s.curStart n rb)

/-- COURIER_EVENT_RESEND: no ACK within 40 bit times; the EVENT is sent at most 8 times and then dropped (R459). -/
def State.curResend (s : State) (n : Node) : State :=
  let s := s.curIdle n
  match (s.serial n).courier.tx with
  | [] => s
  | f :: _ => match f.waitsFrom with
    | none => s
    | some e =>
      let s := s.upTo (e + s.curBits n 40)
      if 8 ≤ f.tries then (s.curDrop n).bumpAt n .curTxAbort
      else s.onCourier n fun k => { k with tx := { f with waitsFrom := none } :: k.tx.tail }

def execCourierEventResend (n : Node) (s : State) : Host.Outcome State Fault Refusal := .next (s.curResend n)

def execDriveClr (_who : Requester) (n : Node) (s : State) : Host.Outcome State Fault Refusal := .next (s.onCourier n fun k => { k with driveFail := false })

/-- A write of CUR_CTL: enables, and SEND and DRIVE_CLR. -/
def State.curCtlWrite (s : State) (n : Node) (v : Word32) : State :=
  let s := (s.curNow n).onSpace n fun c => c.w32 .curCtl (v &&& 3)
  let s := if bit v 9 then s.onCourier n fun k => { k with driveFail := false } else s
  if bit v 8 then s.curSend n else s

/-! ### The hardware's answers (R457 to R459) -/

/-- The frames of a node reach the rack line. -/
def State.onLine (s : State) (src : Byte) : Bool := !(decide (src.toNat < 16) && s.switchOpen (.sled (Fin.ofNat 16 src.toNat)))
/-- A node takes a frame: not its own, and for it or for all, and no open switch between it and the sender (R457, R461). -/
def State.curTakes (s : State) (n : Node) (f : CourierFrame) : Bool :=
  s.curOn n && !(s.serial n).courier.dead && !s.switchOpen n && s.onLine f.src && decide (f.src.toNat ≠ courierId n) && (decide (f.dst.toNat = courierId n) || decide (f.dst = 0xFF))

/-- The PONG payload of a node (Table 14.3). -/
def State.pongBytes (s : State) (n : Node) : List Byte :=
  let c := s.space n
  let b := fun (v : Bool) (k : Nat) => if v then 2 ^ k else 0
  let st : Nat × Nat := match n with
    | .sled sl => ((s.sled sl).rackState, b (s.sled sl).hasLease 0 + b (bit (c.r32 .pwrStatus) 1) 1 + b (bit (c.r32 .pwrStatus) 0) 2)
    | .rf _ => (fld (c.r32 .twnRkRole) 2 0, 0)
  [BitVec.ofNat 8 st.1, BitVec.ofNat 8 st.2] ++ toBytes (c.r32 .curHealth) 2 ++ toBytes (c.r64 .belCount) 4

/-- The hardware owes a response: type, echoed SEQ, payload. -/
def State.curAnswer (s : State) (n : Node) (f : CourierFrame) (type : Byte) (payload : List Byte) : State :=
  s.onCourier n fun k => { k with resp := k.resp ++ [{ bytes := [f.src, type, f.seq, BitVec.ofNat 8 payload.length] ++ payload }] }

/-- A unicast PING is answered with a PONG. -/
def State.gotPing (s : State) (n : Node) (f : CourierFrame) : State :=
  if f.dst = 0xFF then s else s.curAnswer n f 2 (s.pongBytes n)

/-- Store a frame in the lowest free RX buffer, from SRC onward. -/
def State.curStore (s : State) (n : Node) (f : CourierFrame) : State × Bool :=
  match (List.range 4).find? fun i => !bit (s.serial n).courier.full i with
  | none => (s, false)
  | some i =>
    let bs := f.src :: frameTail f
    let s := s.onSpace n fun c => (List.range 16).foldl (fun (c : CfgSpace) w => c.w32 .curRxbuf (ofBytes 32 ((bs.drop (4 * w)).take 4)) i w) c
    ((s.onCourier n fun k => { k with full := setBit k.full i true }).raiseAt n .curEvent 2, true)

/-- The active Rack Factor answers the standby's query: it stays active, and RF_COPY_LOST is raised (R403), in the TWN_EVENT of every sled in service (DEDUCED, log 120). -/
def State.copyLost (s : State) (b : RfId) : State :=
  let s := (s.setRf b { s.rf b with missed := 0, asked := false, askedEnd := none }).report (.rf b) .rfCopyLost
  (List.range 16).foldl (fun (s : State) k => if s.inService (Fin.ofNat 16 k) then s.onSled (Fin.ofNat 16 k) fun x d => d.twnRaise x 8 else s) s

/-- A PONG: it is delivered, it shows the active Rack Factor that a late sled is alive (R398), the standby that the active one is (R403), and a Rack Factor that
starts whether the other is active (R473). -/
def State.gotPong (s : State) (n : Node) (f : CourierFrame) : State :=
  let s := (s.curStore n f).1
  let a := s.activeRf
  match n with
  | .sled _ => s
  | .rf b =>
    let s := if 30 ≤ f.src.toNat then s.setRf b { s.rf b with peer := bit (f.payload.getD 0 0) 1 } else s
    if b = a ∧ f.src.toNat < 16 then
      { s with rack := { s.rack with late := setBit s.rack.late f.src.toNat false, pings := mset s.rack.pings f.src.toNat none } }
    else if b ≠ a ∧ f.src.toNat = 30 + a.val ∧ (s.rf b).asked then s.copyLost b
    else s

/-- An EVENT: a repeat of the SEQ last accepted is acknowledged only; another is stored and acknowledged when a buffer is free. -/
def State.gotEvent (s : State) (n : Node) (f : CourierFrame) : State :=
  let uni := decide (f.dst ≠ 0xFF)
  if uni && decide (mget (s.serial n).courier.lastSeq f.src.toNat = some f.seq) then s.curAnswer n f 4 []
  else
    let r := s.curStore n f
    if !r.2 then r.1
    else if !uni then r.1
    else (r.1.onCourier n fun k => { k with lastSeq := mset k.lastSeq f.src.toNat (some f.seq) }).curAnswer n f 4 []

/-- An ACK that echoes the SEQ of the EVENT waiting for it completes that EVENT. -/
def State.gotAck (s : State) (n : Node) (f : CourierFrame) : State :=
  match (s.serial n).courier.tx with
  | [] => s
  | g :: _ =>
    if g.waitsFrom.isSome && decide (g.bytes.getD 0 0 = f.src ∧ g.bytes.getD 2 0 = f.seq) then (s.curDrop n).raiseAt n .curEvent 0 else s

/-- A checked frame reaches its node, which is not driving the line any more and whose idle count starts at the frame's end (R454). -/
def State.curDeliver (s : State) (n : Node) (f : CourierFrame) : State :=
  let s := s.curIdle n
  let s := if s.switchOpen n || !s.onLine f.src then s else s.onCourier n fun k => { k with idleFrom := s.now }
  if !s.curTakes n f then s
  else match f.type.toNat with
    | 1 => s.gotPing n f
    | 2 => s.gotPong n f
    | 3 => s.gotEvent n f
    | 4 => s.gotAck n f
    | _ => s

/-- A row of one frame type: a well-formed frame of that type. -/
def State.curRow (s : State) (n : Node) (type : Nat) (f : CourierFrame) : State :=
  if f.type.toNat = type ∧ f.payload.length ≤ 32 then s.curDeliver n f else s

def execPing (n : Node) (f : CourierFrame) (s : State) : Host.Outcome State Fault Refusal := .next (s.curRow n 1 f)
def execPong (n : Node) (f : CourierFrame) (s : State) : Host.Outcome State Fault Refusal := .next (s.curRow n 2 f)
def execCourierEvent (n : Node) (f : CourierFrame) (s : State) : Host.Outcome State Fault Refusal := .next (s.curRow n 3 f)
def execCourierAck (n : Node) (f : CourierFrame) (s : State) : Host.Outcome State Fault Refusal := .next (s.curRow n 4 f)

/-! ### Reception (R457) -/

/-- A frame is discarded and counted. -/
def State.badFrame (s : State) (n : Node) : State := (s.bumpAt n .curBadFrames).onCourier n fun k => { k with partRx := [] }

/-- A character on the Courier line as the receiver reads it: 8 data bits, no parity; `brk` marks a break (R442, R446, R457). -/
structure RxChar where
  data : Byte
  fe : Bool
  brk : Bool
deriving DecidableEq, Repr

/-- The character that its samples give (R444); none for a candidate that the start check discards. -/
def rxChar (samples : List Bool) : Option RxChar := (sampleChar 8 false samples).map fun c => ⟨BitVec.ofNat 8 c.value, !c.stop && !c.isBreak, c.isBreak⟩

/-- One character: before a SOF all are discarded; then bytes gather, and the last one decides. `partRx` starts with the SOF. -/
def State.curChar (s : State) (n : Node) (c : RxChar) : State :=
  let got := (s.serial n).courier.partRx
  if got.isEmpty then
    if c.data = 0x7E && !c.fe && !c.brk then s.onCourier n fun k => { k with partRx := [c.data] } else s
  else if c.fe || c.brk then s.badFrame n
  else
    let bs := got ++ [c.data]
    let len := (bs.getD 5 0).toNat
    if 6 ≤ bs.length ∧ 32 < len then s.badFrame n
    else if bs.length < 6 ∨ bs.length < 8 + len then s.onCourier n fun k => { k with partRx := bs }
    else
      let body := (bs.drop 1).take (5 + len)
      let type := (body.getD 2 0).toNat
      if toBytes (crc16 body) 2 ≠ bs.drop (6 + len) ∨ type = 0 ∨ 4 < type then s.badFrame n
      else
        (s.onCourier n fun k => { k with partRx := [], idleFrom := s.now }).curDeliver n
          ⟨body.getD 0 0, body.getD 1 0, body.getD 2 0, body.getD 3 0, (body.drop 5)⟩

/-- COURIER_FRAME_RX: characters, given by their samples, arrive without a gap. A node behind an open switch hears none of the line (R461). -/
def State.curRx (s : State) (n : Node) (chars : List (List Bool)) : State :=
  if !s.curOn n || (s.serial n).courier.dead || s.switchOpen n then s
  else
    let s := s.curIdle n
    (chars.filterMap rxChar).foldl (fun (s : State) c => s.curChar n c) (s.onCourier n fun k => { k with idleFrom := s.now })

def execCourierFrameRx (n : Node) (chars : List (List Bool)) (s : State) : Host.Outcome State Fault Refusal := .next (s.curRx n chars)

/-- COURIER_CHAR_GAP: more than 4 bit times after a character of a frame. -/
def execCourierCharGap (n : Node) (s : State) : Host.Outcome State Fault Refusal :=
  .next (if (s.serial n).courier.partRx.isEmpty then s else s.badFrame n)

/-- CUR_RXBUF: reading its last word marks the buffer free. -/
def State.curBufFree (s : State) (n : Node) (i : Nat) : State := s.onCourier n fun k => { k with full := setBit k.full i false }

def execCurRxbufRead (_who : Requester) (n : Node) (i : Fin 4) (s : State) : Host.Outcome State Fault Refusal :=
  let v := (s.space n).r32 .curRxbuf i 15
  .next { s.curBufFree n i with reply := .val (v.zeroExtend 64) }

/-! ### Isolating a sled (R461) -/

/-- The search: with every switch open the line reads high unless the fault is the Rack Factor's own, after which all that the search opened are closed again; a sled that holds
the line low when its switch is closed is left cut off. A switch that CUR_RK_ISO held open before stays open until software writes 0 (DEDUCED, log 133). -/
def State.isolationSearch (s : State) (b : RfId) (holds : BitVec 16) (rackLow : Bool) : State :=
  if b ≠ s.activeRf || !(s.serial (.rf b)).courier.dead then s
  else if rackLow then s.report (.rf b) .courierRackFault
  else (List.range 16).foldl (fun (s : State) k =>
    if bit ((s.rf b).r32 .curRkIso) k || !bit holds k then s
    else (s.setRf b ((s.rf b).setRegBit .curRkIso k true)).report (.rf b) (.courierIsolated (Fin.ofNat 16 k))) s

def execCourierIsolationSearch (b : RfId) (holds : BitVec 16) (rackLow : Bool) (s : State) : Host.Outcome State Fault Refusal :=
  .next (s.isolationSearch b holds rackLow)

def execCurRkIsoWrite (_who : Requester) (b : RfId) (v : Word32) (s : State) : Host.Outcome State Fault Refusal :=
  .next (s.setRf b ((s.rf b).w32 .curRkIso (v &&& 0xFFFF)))

end Sys2Proof.Machine
end

