-- ==== Sys2Proof/Machine/Protect.lean ====
section
/-! DEFINITION. What a sled is configured with: protected ranges, the interleave share, and the pushed rack configuration (12_twins_rack.md R402, R407, R412). -/
namespace Sys2Proof.Machine

/-- A page of 64 KiB lies in Interleaved or Local memory of the sled (R384). -/
def Sled.pageThere (d : Sled) (pg : Nat) : Bool :=
  match d.class (65536 * pg) with
  | .interleaved | .localEcc | .localRaw => true
  | _ => false

/-- Two ranges share a page. -/
def rangesMeet (a b : Word64) : Bool := decide (fld a 30 0 < fld b 30 0 + fld b 55 32 ∧ fld b 30 0 < fld a 30 0 + fld a 55 32)

/-- A range entry may stand: unused, or at least a page of populated memory that no other valid entry has (R384, R407). -/
def Sled.rangeOk (d : Sled) (i : Nat) (v : Word64) : Bool :=
  decide (fld v 63 62 = 0) ||
    (decide (1 ≤ fld v 55 32) && decide (fld v 30 0 + fld v 55 32 ≤ 2 ^ 31) && (List.range' (fld v 30 0) (fld v 55 32)).all d.pageThere
      && !((List.range 256).any fun j => decide (j ≠ i) && decide (fld (d.r64 .twnRange j) 63 62 ≠ 0) && rangesMeet v (d.r64 .twnRange j)))

/-- A write to TWN_RANGE: ignored when it may not stand, and the mismatch is reported at the next join check (R407). -/
def Sled.rangeWrite (d : Sled) (i : Nat) (v : Word64) : Sled :=
  let v := v &&& BitVec.ofNat 64 (regInfo .twnRange).rw
  if d.rangeOk i v then d.w64 .twnRange v i else { d with cfgMismatch := true }

/-- REG_SPLIT: writes outside 1 to 36, or under LOCK, are ignored (Table 6.11). -/
def Sled.splitWrite (d : Sled) (v : Word32) : Sled :=
  if bit (d.r32 .regCtl) 0 || fld v 5 0 = 0 || 36 < fld v 5 0 then d else d.w32 .regSplit (v &&& 63)

/-- The pushed configuration: Bell settings, REG_SPLIT, the tenant table, the protected ranges; the sled recomputes its digest over it (R402). -/
def State.applyCfg (s : State) (sl : SledId) : State :=
  let s := (s.belSync sl).onSled sl fun _ d =>
    let d := { d.splitWrite Config.rackSplit with cfgWaits := false, cfgMismatch := false, boot := { d.boot with digest := Config.rackDigest } }
    let d := (List.range 256).foldl (fun (d : Sled) i => d.w64 .twnRange 0 i) d
    let d := (List.range 256).foldl (fun (d : Sled) i => d.rangeWrite i (Config.rackRange sl.val i)) d
    allTenants.foldl (fun (d : Sled) t => (d.tntAllotWrite t (Config.rackTenant sl.val t.val).2).tntCtlWrite t (Config.rackTenant sl.val t.val).1) d
  if (s.sled sl).rackState = 2 ∧ fld ((s.sled sl).r32 .twnState) 11 8 = 2 ∧ !(s.sled sl).cfgMismatch then s.setRack sl 3 0 else s

/-- CFG: a pushed digest key is written to TWN_KEY (R392); a configuration is applied at once, or at the next epoch boundary while the sled carries a running
tenant (R412). -/
def State.takeCfg (s : State) (sl : SledId) : State :=
  if (s.sled sl).ended || s.isolatedPort sl then s
  else
    let m := s.takeMail (.sled sl) fun m => match m.body with | .cfg c k => some (c, k) | _ => none
    match m.2 with
    | none => s
    | some (c, k) =>
      let s := match k with
        | some k => m.1.onSled sl fun _ d => (List.range 8).foldl (fun (d : Sled) i => d.w32 .twnKey (k.extractLsb' (32 * i) 32) i) d
        | none => m.1
      if !c then s
      else if allTenants.any (s.sled sl).active then s.onSled sl fun _ d => { d with cfgWaits := true }
      else s.applyCfg sl

def execCfg (sl : SledId) (s : State) : Host.Outcome State Fault Refusal := .next (s.takeCfg sl)

/-- What an epoch boundary does to a sled besides its tick: a configuration that waits is applied (R412), LED_TOTALs are persisted (R426), and the rollback fuses follow the image (R478). -/
def State.sledEpoch (s : State) (sl : SledId) : State :=
  if !isEpoch (s.sled sl).count then s
  else
    let s := if (s.sled sl).cfgWaits then s.applyCfg sl else s
    (s.persistLedger sl).rollbackFuse sl

end Sys2Proof.Machine
end

