-- ==== Sys2Proof/Machine/Bell.lean ====
section
/-! DEFINITION. The tick generator of the Rack Factors, its three sources, the Bell messages to the sleds, and the Bell registers (02_bell.md). -/
namespace Sys2Proof.Machine

/-! ### Period and phase -/

/-- Change the generator of a Rack Factor. -/
def State.onRf (s : State) (b : RfId) (f : RackFactor → RackFactor) : State := s.setRf b (f (s.rf b))
/-- Change the Bell state of a Rack Factor. -/
def RackFactor.onBell (r : RackFactor) (f : Bell → Bell) : RackFactor := { r with bell := f r.bell }
/-- The Bell count of a Rack Factor. -/
def RackFactor.count (r : RackFactor) : Word64 := r.r64 .belCount
/-- PERIOD in force. -/
def RackFactor.period (r : RackFactor) : Nat := fld (r.r32 .belPeriod) 27 0
/-- The mean period as a fraction (n, d) of ns (R44). -/
def RackFactor.mean (r : RackFactor) : Nat × Nat :=
  let f := r.r32 .belFrac
  if fld f 15 0 = 0 then (r.period, 1) else (r.period * fld f 31 16 + fld f 15 0, fld f 31 16)

/-- The signed time in ns from an instant to the nearest multiple of the mean period n / d, where the instant is `x` ns after one: computed
exactly, then rounded to the nearest ns (R44, log 51). -/
def nearestErr (x : Int) (n d : Nat) : Int :=
  let r := (x * (d : Int)) % (n : Int)
  let e : Int := if 2 * r ≤ (n : Int) then -r else (n : Int) - r
  (2 * e + (d : Int)) / (2 * (d : Int))

/-- BEL_PHASE_ERR of an error: two's complement, saturating (R53). -/
def phaseWord (e : Int) : Word32 :=
  let m : Int := 2 ^ 31 - 1
  BitVec.ofInt 32 (if m < e then m else if e < -m then -m else e)

/-! ### Sources (Table 2.2) -/

/-- SRC of Table 2.5. -/
def RackFactor.src (r : RackFactor) : Nat := fld (r.r32 .belStatus) 1 0

/-- The source that R42 chooses: enabled, armed and qualified, PTP before BELL_IN before the internal oscillator. -/
def RackFactor.choose (r : RackFactor) : Nat :=
  let c := r.r32 .belSrcCtl
  let v := r.r32 .belStatus
  if bit c 0 && bit v 6 && bit v 4 then 2 else if bit c 1 && bit v 7 && bit v 5 then 1 else 0

/-- A source is no longer qualified, and its run starts afresh. -/
def RackFactor.unqualify (r : RackFactor) (ptp : Bool) : RackFactor :=
  (r.setRegBit .belStatus (if ptp then 4 else 5) false).onBell fun b => if ptp then { b with ptpGood := 0, ptpBad := 0 } else { b with inRun := 0 }

/-- An interval of BELL_IN is within 1 % of the programmed mean (Table 2.2). -/
def RackFactor.near (r : RackFactor) (gap : Nat) : Bool := decide (100 * ((gap * r.mean.2 : Nat) - (r.mean.1 : Int)).natAbs ≤ r.mean.1)

/-- BELL_IN's period is not known to differ from the programmed mean by more than 1 %: it does where none of its last 16 accepted intervals is within 1 % of that mean
(R64; DEDUCED, log 118). -/
def RackFactor.inFits (r : RackFactor) : Bool := r.bell.inGaps.isEmpty || r.bell.inGaps.any r.near

/-- A BELL_IN whose mean period differs by more than 1 % from the programmed mean is not qualified (R64). -/
def RackFactor.dropOff (r : RackFactor) : RackFactor := if r.inFits then r else r.unqualify false

/-- PTP is lost: it must qualify afresh, and PTP_LOST is raised when it was active (R57). -/
def State.losePtp (s : State) (b : RfId) : State :=
  let r := s.rf b
  let s := s.setRf b (r.unqualify true)
  if r.src = 2 && bit (r.r32 .belStatus) 4 then s.belRaise (.rf b) 5 else s

/-- The servo offset of the tick just ended counts for PTP's qualification and loss (Table 2.2). -/
def State.ptpTick (s : State) (b : RfId) : State :=
  let k := (s.rf b).bell
  if !k.ptpSeen || k.ptpBase.isNone then s
  else
    let off := k.ptpServo.natAbs
    let s := s.onRf b fun r => r.onBell fun k => { k with ptpGood := if off ≤ 1000 then k.ptpGood + 1 else 0, ptpBad := if 10000 < off then k.ptpBad + 1 else 0 }
    let k := (s.rf b).bell
    if 4 ≤ k.ptpBad then s.losePtp b
    else if 16 ≤ k.ptpGood then s.onRf b fun r => r.setRegBit .belStatus 4 true
    else s

/-- The active source changes to what R42 chooses (R43, R62). -/
def State.handover (s : State) (b : RfId) : State :=
  let r := s.rf b
  let n := r.choose
  if n = r.src then s
  else (s.setRf b ((r.w32 .belStatus (setFld (r.r32 .belStatus) 1 0 n)).onBell fun k => { k with slewFrom := some r.count })).belRaise (.rf b) 3

/-- The phase error at this boundary: from the generator's own boundary to the nearest boundary instant of the active source (R43 to R45). -/
def RackFactor.phaseErr (r : RackFactor) (now : Nat) : Int :=
  let p := r.mean
  match r.src with
  | 2 => match r.bell.ptpBase with
    | some b => nearestErr (now + b - r.bell.align.toNat) p.1 p.2
    | none => 0
  | 1 => match r.bell.lastEdge with
    | some e => nearestErr ((now : Int) - e) p.1 p.2
    | none => 0
  | _ => 0

/-- The new period at an epoch boundary (R49), before the choice of source (R61). A BELL_IN that does not fit the new mean is no longer qualified (R64). -/
def State.samplePeriod (s : State) (b : RfId) : State :=
  let r := s.rf b
  if !(isEpoch r.count && bit (r.r32 .belStatus) 9) then s
  else
    let r := r.setRegBit .belStatus 9 false
    if pairValid (r.r32 .belPeriodNext) (r.r32 .belFracNext) then
      (s.setRf b (((r.w32 .belPeriod (r.r32 .belPeriodNext)).w32 .belFrac (r.r32 .belFracNext)).onBell fun k => { k with acc := 0 }).dropOff).belRaise (.rf b) 6
    else (s.setRf b ((r.w32 .belPeriodNext (r.r32 .belPeriod)).w32 .belFracNext (r.r32 .belFrac))).belRaise (.rf b) 9

/-- The length of the tick that starts, with its fraction and slew (R35, R43), and what slewing shows. -/
def State.measure (s : State) (b : RfId) : State :=
  let r := s.rf b
  let e := r.phaseErr s.now
  let was := bit (r.r32 .belStatus) 8
  let far := decide (100 < e.natAbs)
  let a := accStep r.bell.acc (r.r32 .belFrac)
  let len := ((r.period + a.2 : Nat) : Int) + (if far then clampSlew e r.period else 0)
  let r := (((r.w32 .belPhaseErr (phaseWord e)).setRegBit .belStatus 8 far).w32 .belTickLen (BitVec.ofNat 32 len.toNat)).w32 .belSettle (BitVec.ofNat 32 (settleLen r.period))
  let s := s.setRf b (r.onBell fun k => { k with acc := a.1, slewFrom := if far then k.slewFrom else none })
  if was && !far && decide (r.src ≠ 0) then s.belRaise (.rf b) 4 else s

/-- What the generator does at a boundary once its count and time are set: the monitors of the tick, period, source, phase. -/
def State.boundaryOf (s : State) (b : RfId) : State :=
  let s := s.onRf b fun r => (r.w32 .belRejects (setFld (r.r32 .belRejects) 3 0 0)).onBell fun k =>
    { k with rejTick := 0, align := r.r64 .belAlign, running := true, startedAt := s.now }
  (((s.samplePeriod b).ptpTick b).handover b).measure b

/-! ### The rack at a boundary -/

/-- The lease goes to the twin of a holder that is out of service, and back to the lower-numbered sled, once that is in service, when no lease of the pair runs: one that
runs is not moved without isolating its holder (R395, R397; DEDUCED, log 119). `joins`: sleds that enter at this boundary count as in service. -/
def State.settleLeases (s : State) (joins : Bool) : State :=
  (List.range 8).foldl (fun (s : State) p =>
    let on := fun (n : Nat) => let k := s.rackOf (Fin.ofNat 16 n); decide (k = 4 ∨ k = 5 ∨ k = 7 ∨ (k = 3 ∧ joins = true))
    let odd := bit ((s.rf s.activeRf).r32 .twnRkLease) p
    let holder := 2 * p + if odd then 1 else 0
    let other := 2 * p + if odd then 0 else 1
    let runs := (s.sled (Fin.ofNat 16 holder)).hasLease
    if (!on holder && on other) || (odd && on other && !runs) then s.onActive fun f => f.setRegBit .twnRkLease p (!odd) else s) s

/-- A digest key that a sled has not received from the Rack Factor. -/
def Mail.keyFor (m : Mail) (sl : SledId) : Bool := decide (m.dst = .sled sl) && match m.body with | .cfg _ (some _) => true | _ => false
/-- A push of a key has not reached both sleds of pair `p`. -/
def State.keyMissed (s : State) (p : Nat) : Bool := s.mail.any fun m => m.keyFor (Fin.ofNat 16 (2 * p)) || m.keyFor (Fin.ofNat 16 (2 * p + 1))

/-- A new digest key for the pairs `ps`, in a CFG frame to each of their sleds (R392). A push that has missed a sled of the pair is void: neither sled takes it any more (R415). -/
def State.pushKeys (s : State) (b : RfId) (ps : List Nat) : State :=
  ps.foldl (fun (s : State) p =>
    let s := { s with mail := s.mail.filter fun m => !(m.keyFor (Fin.ofNat 16 (2 * p)) || m.keyFor (Fin.ofNat 16 (2 * p + 1))) }
    let r := s.rf b
    let w := fun (k : Nat) => Config.freeWord (16 + b.val) (r.freeCtr + k)
    let key : BitVec 256 := w 3 ++ w 2 ++ w 1 ++ w 0
    let s := s.setRf b { r with freeCtr := r.freeCtr + 4 }
    let send := fun (n : Nat) => if s.rackOf (Fin.ofNat 16 n) = 4 ∨ s.rackOf (Fin.ofNat 16 n) = 3 then [Mail.mk (.rf b) (.sled (Fin.ofNat 16 n)) (.cfg false (some key))] else []
    { s with mail := s.mail ++ send (2 * p) ++ send (2 * p + 1) }) s

/-- The rack reports NO_SERVICE when no sled is IN_SERVICE (R485). -/
def State.noSledCheck (s : State) : State :=
  if (List.range 16).any fun n => decide (s.rackOf (Fin.ofNat 16 n) = 4) then s else s.report (.rf s.activeRf) .rackNoService

/-- A sled moves to DRAINING: its Mirror tenants continue lone on the twin (R405). -/
def State.startDrain (s : State) (sl : SledId) : State :=
  let mir := allTenants.filter fun t => (s.sled sl).protectedT t && (s.sled sl).mirror t
  let s := s.setRack sl 7 0
  let s := s.onSled sl fun x d => mir.foldl (fun (d : Sled) t => d.takeOut x t) d
  s.onSled (twinOf sl) fun x d => (mir.filter d.protectedT).foldl (fun (d : Sled) t => d.goLone x t false) d

/-- A DRAINING sled without an enabled tenant reads ABSENT, and its port is isolated (R405). The tenants that its twin ran with their replicas here run lone from now on,
until they are re-paired (R400, R406). -/
def State.endDrain (s : State) (sl : SledId) : State :=
  if s.rackOf sl = 7 ∧ !allTenants.any (s.sled sl).active then
    let s := (s.setRack sl 0 0).cutOff sl
    let s := { s with rack := { s.rack with drains := setBit s.rack.drains sl.val false } }
    (s.onSled (twinOf sl) fun x d => (allTenants.filter d.protectedT).foldl (fun (d : Sled) t => if d.pairedT t then d.goLone x t false else d) d).noSledCheck
  else s

/-- The rack's manifest and totals change at epoch boundaries: over the sleds in service, those that enter here among them (R28, R34, R489). -/
def State.showManifest (s : State) : State :=
  let ms := (List.range 16).filterMap fun n =>
    let k := s.rackOf (Fin.ofNat 16 n)
    if k = 3 ∨ k = 4 then (mget s.rack.joins n).map fun m => ((Fin.ofNat 16 n : SledId), m.manifest) else none
  s.onActive fun f => { f with cfg := f.cfg.putManifest (rackManifest ms) }

/-- Data port `p`. -/
def State.port (s : State) (p : Nat) : DataPort := mget s.rack.ports p
/-- Change data port `p`. -/
def State.onPort (s : State) (p : Nat) (f : DataPort → DataPort) : State := { s with rack := { s.rack with ports := mmod s.rack.ports p f } }
/-- A binding change takes effect at a boundary: the port starts from the rings' headers (R501). -/
def State.bindPorts (s : State) : State :=
  let r := s.rf s.activeRf
  (List.range 8).foldl (fun (s : State) p =>
    let k := s.port p
    let n : DataPort := { k with ctl := r.r32 .twnRkDpCtl p, rxRing := r.r64 .twnRkDpRx p, rxHdr := r.r64 .twnRkDpRxHdr p, txRing := r.r64 .twnRkDpTx p, txHdr := r.r64 .twnRkDpTxHdr p }
    if k = n then s else s.onPort p fun _ => { n with rx := {}, tx := {} }) s

/-- What the active Rack Factor does at a boundary besides its generator: drains (R405), leases, port bindings (R501), and the keys of an epoch, pushed again at the next boundary to a pair of which a sled missed them (R415). -/
def State.rackBoundary (s : State) (b : RfId) : State :=
  let s := (List.range 16).foldl (fun (s : State) n =>
    let sl : SledId := Fin.ofNat 16 n
    let s := if bit s.rack.drains n && decide (s.rackOf sl = 4) then s.startDrain sl else s
    s.endDrain sl) s
  let e := isEpoch (s.rf b).count
  let s := (s.settleLeases e).bindPorts
  if e then (s.pushKeys b (List.range 8)).showManifest else s.pushKeys b ((List.range 8).filter s.keyMissed)

/-- The active Rack Factor's boundary (R36). -/
def State.activeBoundary (s : State) (b : RfId) : State :=
  let r := s.rf b
  let s := s.upTo (r.bell.startedAt + (r.r32 .belTickLen).toNat)
  let s := s.setRf b ((r.w64 .belTickStart (r.r64 .belTickStart + BitVec.ofNat 64 (r.r32 .belTickLen).toNat)).w64 .belCount (r.count + 1))
  (s.boundaryOf b).rackBoundary b

/-- The standby that misses the state copy of a second settle in a row queues a Courier query, a PING, to the active Rack Factor (R403, R459). -/
def State.askActive (s : State) (b : RfId) : State :=
  let r := s.rf b
  if r.copyGot || r.missed = 0 || r.asked then s
  else
    (s.onRf b fun r => { r with asked := true, askedEnd := none }).onCourier (.rf b) fun k =>
      { k with tx := k.tx ++ [{ bytes := [BitVec.ofNat 8 (30 + s.activeRf.val), 1, BitVec.ofNat 8 r.count.toNat, 0] }] }

/-- The standby's boundary: its generator is slaved to the active one (R46), whose values it takes when that is at the count it comes to, what is left of a period
change among them (R49); and it notes whether the state copy of the last settle came (R403). -/
def State.standbyBoundary (s : State) (b : RfId) : State :=
  let r := s.rf b
  let a := s.rf s.activeRf
  let s := s.upTo (r.bell.startedAt + (r.r32 .belTickLen).toNat)
  let miss := fun (r : RackFactor) => { r with missed := if r.copyGot then 0 else r.missed + 1, copyGot := false }
  let s := s.askActive b
  let s := s.setRf b (miss (((s.rf b).w64 .belTickStart (r.r64 .belTickStart + BitVec.ofNat 64 (r.r32 .belTickLen).toNat)).w64 .belCount (r.count + 1)))
  let s := s.onRf b fun r => (r.w32 .belRejects (setFld (r.r32 .belRejects) 3 0 0)).onBell fun k => { k with rejTick := 0, align := r.r64 .belAlign, startedAt := s.now }
  let s := s.ptpTick b
  if a.up && a.bell.running && decide (a.count = r.count + 1) then
    s.onRf b fun r =>
      let r := (((r.w32 .belPeriod (a.r32 .belPeriod)).w32 .belFrac (a.r32 .belFrac)).w32 .belTickLen (a.r32 .belTickLen)).w32 .belSettle (a.r32 .belSettle)
      let r := ((r.w32 .belPeriodNext (a.r32 .belPeriodNext)).w32 .belFracNext (a.r32 .belFracNext)).setRegBit .belStatus 9 (bit (a.r32 .belStatus) 9)
      (r.w64 .belTickStart (a.r64 .belTickStart)).onBell fun k => { k with acc := a.bell.acc }
  else (s.samplePeriod b).onRf b fun r =>
    let q := accStep r.bell.acc (r.r32 .belFrac)
    ((r.w32 .belTickLen (BitVec.ofNat 32 (r.period + q.2))).w32 .belSettle (BitVec.ofNat 32 (settleLen r.period))).onBell fun k => { k with acc := q.1 }

/-- The settle acknowledgment of a boundary (TYPE 0x11), from a sled the rack counts on and whose port is not isolated. -/
def State.sendAck (s : State) (sl : SledId) : State :=
  let d := s.sled sl
  if (d.rackState = 4 ∨ d.rackState = 5 ∨ d.rackState = 7) ∧ !s.isolatedPort sl then
    { s with mail := s.mail ++ [Mail.mk (.sled sl) (.rf s.activeRf) (.ack d.count)] }
  else s

/-- BELL_BOUNDARY of a node. -/
def State.bellBoundary (s : State) : Node → State
  | .sled sl =>
    if !(s.sled sl).bell.running then s
    else
      let s := (s.sledBoundary sl).sledEpoch sl
      s.sendAck sl
  | .rf b =>
    if !(s.rf b).up || !(s.rf b).bell.running then s
    else if b = s.activeRf then s.activeBoundary b
    else s.standbyBoundary b

def execBellBoundary (n : Node) (s : State) : Host.Outcome State Fault Refusal := .next (s.bellBoundary n)

/-! ### BELL_IN (R45, R54, R55, R64) -/

/-- A rising edge: rejected when less than half a PERIOD after the last accepted one, and chattering at 8 rejects in a tick. A reject ends the run of consecutive accepted
edges (Table 2.2; DEDUCED, log 118). -/
def State.bellInEdge (s : State) (b : RfId) : State :=
  let r := s.rf b
  if !r.up then s
  else
    let gap := fun (e : Nat) => s.now - e
    let early := match r.bell.lastEdge with
      | some e => decide (2 * gap e < r.period)
      | none => false
    if early then
      let v := r.r32 .belRejects
      let r := (r.w32 .belRejects (setFld (setFld v 31 8 (min 16777215 (fld v 31 8 + 1))) 3 0 (min 15 (fld v 3 0 + 1)))).onBell fun k =>
        { k with rejTick := k.rejTick + 1, inRun := 0 }
      if 8 ≤ r.bell.rejTick ∧ bit (r.r32 .belStatus) 7 then (s.setRf b ((r.unqualify false).setRegBit .belStatus 7 false)).belRaise (.rf b) 1
      else s.setRf b r
    else
      let ok := match r.bell.lastEdge with
        | some e => r.near (gap e)
        | none => false
      let gaps := match r.bell.lastEdge with
        | some e => (gap e :: r.bell.inGaps).take 16
        | none => r.bell.inGaps
      let r := r.onBell fun k => { k with lastEdge := some s.now, inRun := if ok then k.inRun + 1 else 1, inGaps := gaps }
      s.setRf b (if 16 ≤ r.bell.inRun ∧ bit (r.r32 .belStatus) 7 then r.setRegBit .belStatus 5 true else r.dropOff)

def execBellInEdge (b : RfId) (s : State) : Host.Outcome State Fault Refusal := .next (s.bellInEdge b)

/-- BELL_LOST: no edge for 2 periods plus 1 ms after the last accepted one. BELL_IN is not disarmed (R54). -/
def State.bellLost (s : State) (b : RfId) : State :=
  let r := s.rf b
  match r.bell.lastEdge with
  | none => s
  | some e =>
    if !r.up || !bit (r.r32 .belStatus) 5 then s
    else
      let s := (s.upTo (e + 2 * r.period + 1000000)).setRf b (r.unqualify false)
      if r.src = 1 then s.belRaise (.rf b) 0 else s

def execBellLost (b : RfId) (s : State) : Host.Outcome State Fault Refusal := .next (s.bellLost b)

/-! ### PTP (R57 to R59, R508 to R510) -/

/-- A PTP message of the clock's domain: Announce says that a master is there, Sync, Follow_Up and Delay_Resp give the servo its offset and the PTP time of
this instant. Peer-delay messages and the SMPTE metadata TLV do not touch the Bell. -/
def State.ptpMessage (s : State) (b : RfId) (m : PtpMsg) : State :=
  let r := s.rf b
  if !r.up || decide (m.domain.toNat ≠ fld (r.r32 .belPtp) 6 0) then s
  else match m.kind with
    | .announce => s.onRf b fun r => r.onBell fun k => { k with ptpSeen := true }
    | .sync | .followUp | .delayResp => s.onRf b fun r => r.onBell fun k => { k with ptpServo := m.offset, ptpBase := some (m.ptpTime - s.now) }
    | .peerDelay | .metadataTlv => s

def execPtpMessageRx (b : RfId) (m : PtpMsg) (s : State) : Host.Outcome State Fault Refusal := .next (s.ptpMessage b m)

/-- PTP_LOST: the Announce receipt timeout. -/
def State.ptpTimeout (s : State) (b : RfId) : State :=
  if !(s.rf b).up then s else (s.losePtp b).onRf b fun r => r.onBell fun k => { k with ptpSeen := false }

def execPtpLost (b : RfId) (s : State) : Host.Outcome State Fault Refusal := .next (s.ptpTimeout b)

/-- BELL_UNLOCK: slewing has not ended 100 ticks after a handover, and the source is disarmed (R56). -/
def State.bellUnlock (s : State) (b : RfId) : State :=
  let r := s.rf b
  match r.bell.slewFrom with
  | none => s
  | some n =>
    if !r.up || !bit (r.r32 .belStatus) 8 || decide ((r.count - n).toNat < 100) || decide (r.src = 0) then s
    else
      let ptp := decide (r.src = 2)
      (s.setRf b (((r.unqualify ptp).setRegBit .belStatus (if ptp then 6 else 7) false).onBell fun k => { k with slewFrom := none })).belRaise (.rf b) 2

def execBellUnlock (b : RfId) (s : State) : Host.Outcome State Fault Refusal := .next (s.bellUnlock b)

/-! ### Bell messages (R47, R48, R395) -/

/-- A sled of the pair holds the lease by the table of holders. -/
def holdsBy (odd : BitVec 8) (sl : SledId) : Bool := bit odd (sl.val / 2) == decide (sl.val % 2 = 1)

/-- Fence tenants of a sled. -/
def Sled.fenceT (d : Sled) (ts : List TenantId) (b : Bool) : Sled := ts.foldl (fun (d : Sled) t => d.setRegBit .tntStatus 4 b t) d
/-- The tenants a lapsed lease fences (R395). -/
def Sled.leased (d : Sled) : List TenantId := allTenants.filter d.protectedT

/-- A BELL message renews the lease of the pair until the boundary 4 ticks later, and tells whether this sled is its holder (R395). Tenants that a lapse fenced are
re-admitted (DEDUCED, log 52). -/
def Sled.takeLease (x : Ctx) (d : Sled) (odd : BitVec 8) (count : Word64) (entering : Bool) : Sled :=
  let lapsed := d.bell.leaseUntil.isNone
  let holds := holdsBy odd x.sl
  let gained := holds && !d.hasLease && !entering
  let d : Sled := { d.setRegBit .twnState 4 holds with bell := { d.bell with leaseUntil := some (count + 4) } }
  let d := if gained then d.twnRaise x 6 else d
  if lapsed && decide (d.rackState ≠ 5) then d.fenceT (d.leased) false else d

/-- The sled starts from the message: count, time, period and accumulator (R48, R402). -/
def State.adoptBell (s : State) (sl : SledId) (m : BellMsg) : State :=
  let r := s.rf s.activeRf
  s.onSled sl fun x d =>
    let d := ((d.w64 .belCount m.count).w64 .belTickStart m.time).w32 .belPeriod m.period
    let d := (d.w32 .belFrac (m.den ++ m.num)).w32 .belTickLen (if r.count = m.count then r.r32 .belTickLen else m.period)
    let d := d.w32 .belSettle (BitVec.ofNat 32 (settleLen m.period.toNat))
    { d with bell := { d.bell with acc := r.bell.acc, startedAt := x.now, running := true, absent := false, slew := 0 } }

/-- A count mismatch fences every tenant (R48); Mirror tenants are rolled back and held on both twins (R404). -/
def State.countFence (s : State) (sl : SledId) (m : BellMsg) : State :=
  let d := s.sled sl
  let mir := allTenants.filter fun t => d.active t && d.mirror t
  let s := (s.onSled sl fun _ d => (d.fenceT (allTenants.filter d.active) true).w64 .belCount m.count).belRaise (.sled sl) 8
  let roll := fun (s : State) (k : SledId) => s.onSled k fun x d => (mir.filter fun t => d.active t && d.mirror t).foldl (fun (d : Sled) t =>
    ((d.rollback x t).onTwin t fun w => { w with held := true, waiting := false, mine := none, theirs := none }).step4Check) d
  (roll (roll s sl) (twinOf sl)).setRack sl 5 0

/-- Release the Mirror tenants that a fence of this sled held on both twins (R404). -/
def State.freeHeld (s : State) (sl : SledId) : State :=
  let mir := allTenants.filter fun t => (s.sled sl).active t && (s.sled sl).mirror t
  let free := fun (s : State) (k : SledId) => s.onSled k fun x d => (mir.filter fun t => (d.twin t).held).foldl (fun (d : Sled) t =>
    let d := d.onTwin t fun w => { w with held := false }
    if d.bell.admitted then d.gatePass x t d.bell.work else d) d
  free (free s sl) (twinOf sl)

/-- The epoch message re-admits a fenced sled, and releases the Mirror tenants held on both twins (R48, R404). -/
def State.readmitSled (s : State) (sl : SledId) (m : BellMsg) : State :=
  (((s.adoptBell sl m).onSled sl fun _ d => d.fenceT (allTenants.filter d.active) false).setRack sl 4 0).freeHeld sl

/-- A SYNCING sled enters service at the epoch message, which is its first boundary (R402). One that re-joins after it was without a Bell goes on with the tenants it kept (R31). -/
def State.enterService (s : State) (sl : SledId) (m : BellMsg) : State :=
  let s := (((s.adoptBell sl m).belSync sl).setRack sl 4 0).onSled sl fun _ d =>
    { d.fenceT (allTenants.filter d.active) false with bell := { d.bell with work := false, settle := 1, admitted := false }, boot := { d.boot with since := some m.count } }
  ((s.freeHeld sl).boundaryWork sl).sendAck sl

/-- The sled sends JOIN: its firmware version, its manifest and its configuration digest (R402). -/
def State.sendJoin (s : State) (sl : SledId) : State :=
  let d := s.sled sl
  let s := s.onSled sl fun x d => { d with boot := { d.boot with joinAt := x.now } }
  if s.isolatedPort sl then s else { s with mail := s.mail ++ [Mail.mk (.sled sl) (.rf s.activeRf) (.join ⟨d.boot.fwMajor, d.boot.fwMinor, d.boot.digest, d.manifest⟩)] }

/-- BELL_MESSAGE: the sled corrects the message by its path delay (R47), compares counts (R48) and updates its lease from the table of holders (R395). A sled that was without a Bell
for too long joins again before it goes on (R31). -/
def State.bellMessage (s : State) (sl : SledId) (m : BellMsg) : State :=
  let d := s.sled sl
  let k := d.rackState
  let odd : BitVec 8 := ((s.rf s.activeRf).r32 .twnRkLease).truncate 8
  if d.ended || k = 0 || s.isolatedPort sl then s
  else
    let s := s.onSled sl fun x d => { d.w32 .belPathDelay m.delay with bell := { d.bell with heard := x.now } }
    if k = 3 ∧ isEpoch m.count then (s.enterService sl m).onSled sl fun x d => d.takeLease x odd m.count true
    else if k ≠ 4 ∧ k ≠ 5 ∧ k ≠ 7 then s
    else if d.bell.absent then (s.setRack sl 1 0).sendJoin sl
    else
      let s := s.onSled sl fun _ d => d.w32 .belSkew (BitVec.ofInt 32 m.offset)
      let s := if 40 < m.offset.natAbs then (s.onSled sl fun _ d => { d with bell := { d.bell with slew := -m.offset } }).belRaise (.sled sl) 7 else s
      let s := if k = 5 ∧ isEpoch m.count then s.readmitSled sl m
        else if (s.sled sl).count ≠ m.count then s.countFence sl m
        else s
      s.onSled sl fun x d => d.takeLease x odd m.count false

def execBellMessage (sl : SledId) (m : BellMsg) (s : State) : Host.Outcome State Fault Refusal := .next (s.bellMessage sl m)

/-- BELL_ABSENT_TIMEOUT: no Bell for 2 periods plus 1 ms. No further work is admitted; the work window goes on to its end, and NO_SERVICE is reported once the sled is in
settle: at once, or at the boundary that ends the window (R31). -/
def State.bellAbsent (s : State) (sl : SledId) : State :=
  let d := s.sled sl
  if !d.bell.running || d.bell.absent then s
  else
    let s := s.upTo (d.bell.heard + 2 * (d.r32 .belPeriod).toNat + 1000000)
    let s := s.onSled sl fun _ d => { d with bell := { d.bell with absent := true } }
    if (s.sled sl).bell.work then s else s.report (.sled sl) .noService

def execBellAbsentTimeout (sl : SledId) (s : State) : Host.Outcome State Fault Refusal := .next (s.bellAbsent sl)

/-- LEASE_EXPIRY: the pair's lease has not been renewed for 4 ticks, and each sled of the pair fences its protected tenants at once (R395, R414). -/
def Sled.leaseExpiry (d : Sled) : Sled :=
  match d.bell.leaseUntil with
  | some n => if n.toNat ≤ d.count.toNat then { (d.fenceT d.leased true).setRegBit .twnState 4 false with bell := { d.bell with leaseUntil := none } } else d
  | none => d

def execLeaseExpiry (sl : SledId) (s : State) : Host.Outcome State Fault Refusal := .next (s.onSled sl fun _ d => d.leaseExpiry)

/-! ### Bell registers (R49, R50, R52, R53, R62, R65) -/

/-- The sleds and the standby Rack Factor take copies of the active one's values (R46, R52). -/
def State.belCopies (s : State) : State :=
  let a := s.rf s.activeRf
  let s := s.onRfs fun r =>
    let r := ((r.w32 .belPeriodNext (a.r32 .belPeriodNext)).w32 .belFracNext (a.r32 .belFracNext)).w32 .belSrcCtl (a.r32 .belSrcCtl)
    (r.w64 .belAlign (a.r64 .belAlign)).setRegBit .belStatus 9 (bit (a.r32 .belStatus) 9)
  (List.range 16).foldl (fun (s : State) n => if (s.sled (Fin.ofNat 16 n)).bell.running then s.belSync (Fin.ofNat 16 n) else s) s

/-- A write to a Bell register that only the active Rack Factor takes: ignored on a sled (R52) and on the standby, whose block holds copies (log 53). -/
def State.belWrite (s : State) (n : Node) (f : RackFactor → RackFactor) : State :=
  match n with
  | .sled _ => s
  | .rf b => if b = s.activeRf then (s.onRf b f).belCopies else s

def execBelPeriodNextWrite (_who : Requester) (n : Node) (v : Word32) (s : State) : Host.Outcome State Fault Refusal :=
  .next (s.belWrite n fun r => (r.w32 .belPeriodNext (v &&& 0x0FFFFFFF)).setRegBit .belStatus 9 true)

def execBelFracNextWrite (_who : Requester) (n : Node) (v : Word32) (s : State) : Host.Outcome State Fault Refusal :=
  .next (s.belWrite n fun r => (r.w32 .belFracNext v).setRegBit .belStatus 9 true)

/-- Re-arm a source: its history is cleared and it must qualify afresh (R50). -/
def RackFactor.rearm (r : RackFactor) (ptp : Bool) : RackFactor :=
  let r := (r.unqualify ptp).setRegBit .belStatus (if ptp then 6 else 7) true
  if ptp then r else (r.w32 .belRejects 0).onBell fun k => { k with rejTick := 0, lastEdge := none, inGaps := [] }

/-- A write of 1 to a REARM bit acts on the monitors of the Rack Factor it is written in; a sled ignores it (R52). -/
def State.rearmSrc (s : State) (n : Node) (ptp : Bool) : State :=
  match n with
  | .sled _ => s
  | .rf b => s.onRf b fun r => r.rearm ptp

def execRearmPtp (_who : Requester) (n : Node) (s : State) : Host.Outcome State Fault Refusal := .next (s.rearmSrc n true)
def execRearmIn (_who : Requester) (n : Node) (s : State) : Host.Outcome State Fault Refusal := .next (s.rearmSrc n false)

/-- A write of BEL_SRC_CTL: the enables count at the next boundary (R62), and the REARM bits act. -/
def State.srcCtlWrite (s : State) (n : Node) (v : Word32) : State :=
  let s := s.belWrite n fun r => r.w32 .belSrcCtl (v &&& 3)
  let s := if bit v 3 then s.rearmSrc n true else s
  if bit v 2 then s.rearmSrc n false else s

def execBelSrcEnWrite (_who : Requester) (n : Node) (v : Word32) (s : State) : Host.Outcome State Fault Refusal := .next (s.srcCtlWrite n v)

/-- A write of BEL_PTP governs the clock of the Rack Factor it is written in; a change makes PTP qualify afresh (R52, R53). -/
def State.belPtpWrite (s : State) (n : Node) (v : Word32) : State :=
  match n with
  | .sled _ => s
  | .rf b =>
    let w := v &&& 0x17F
    if (s.rf b).r32 .belPtp = w then s
    else (s.onRf b fun r => ((r.w32 .belPtp w).unqualify true).onBell fun k => { k with ptpSeen := false, ptpBase := none }).belCopies

def execBelPtpWrite (_who : Requester) (n : Node) (v : Word32) (s : State) : Host.Outcome State Fault Refusal := .next (s.belPtpWrite n v)

end Sys2Proof.Machine
end

