-- ==== Sys2Proof/Machine/Rack.lean ====
section
/-! DEFINITION. The rack as one machine: the Tether's states, acknowledgments and loss, joins, drains, isolation, and the Rack Factors' roles (12_twins_rack.md R381 to R415). -/
namespace Sys2Proof.Machine

/-! ### The Tether (R381 to R383) -/

/-- STATE and LANES of a Tether end. -/
def Sled.linkState (d : Sled) : Nat := fld (d.r32 .twnLinkStatus) 2 0
def Sled.setLink (d : Sled) (st lanes : Nat) : Sled := d.w32 .twnLinkStatus (setFld (setFld (d.r32 .twnLinkStatus) 2 0 st) 12 8 lanes)
/-- The link may train: start-up has powered the end, and it is enabled (Table 12.1). -/
def Sled.linkOn (d : Sled) : Bool := decide (fld (d.r32 .service) 2 0 = 1 ∨ fld (d.r32 .service) 2 0 = 2) && bit (d.r32 .twnLinkCtl) 0

/-- Both ends of a link, that of `sl` first. -/
def State.onPair (s : State) (sl : SledId) (f : Ctx → Sled → Sled) : State := (s.onSled sl f).onSled (twinOf sl) f

/-- A link whose ends are both powered and enabled leaves DOWN for TRAINING, once neither end is up any more (Table 12.1; DEDUCED, log 98). -/
def State.trainLink (s : State) (sl : SledId) : State :=
  let off := fun (k : SledId) => (s.sled k).linkOn && decide ((s.sled k).linkState = 0 ∨ (s.sled k).linkState = 1)
  if off sl && off (twinOf sl) then s.onPair sl fun _ d => if d.linkState = 0 then { d.setLink 1 0 with tether := { d.tether with fails := 0 } } else d else s

/-- HEARTBEAT: an end idle for 10 µs tells the other that it lives. -/
def State.heartbeat (s : State) (sl : SledId) : State :=
  if !s.linked sl then s
  else
    let s := s.upTo ((s.sled sl).tether.sent + 10000)
    let add := fun (r : Reg) (d : Sled) => d.w64 r (d.r64 r + 20)
    let s := s.onSled sl fun x d => (({ add .twnTxBytes d with tether := { d.tether with sent := x.now } }).tally 64 11 160)
    s.onSled (twinOf sl) fun x d => { add .twnRxBytes d with tether := { d.tether with heard := x.now } }

def execHeartbeat (sl : SledId) (s : State) : Host.Outcome State Fault Refusal := .next (s.heartbeat sl)

/-- An end is DOWN: LINK_DOWN is raised and reported, and what needs the twin is decided (R396, R411). The link trains again as Table 12.1 says. -/
def State.linkDown (s : State) (sl : SledId) : State :=
  let s := s.onSled sl fun x d => (d.setLink 0 0).twnRaise x 0
  let s := if bit ((s.sled sl).r32 .twnEventEn) 0 then s.report (.sled sl) (.twin 0) else s
  (s.tetherLost sl).trainLink sl

/-- TETHER_LINK_TIMEOUT: no valid frame for 100 µs. -/
def State.linkTimeout (s : State) (sl : SledId) : State :=
  let d := s.sled sl
  if !d.tetherUp then s else (s.upTo (d.tether.heard + 100000)).linkDown sl

def execTetherLinkTimeout (sl : SledId) (s : State) : Host.Outcome State Fault Refusal := .next (s.linkTimeout sl)

/-- TETHER_LANE_LOSS: `lanes` survive, and the link is DEGRADED with no frame lost (R382). With fewer than 8, which Table 12.1 does not let DEGRADED have, the link
trains at once, and its frames wait (DEDUCED, log 98). -/
def State.laneLoss (s : State) (sl : SledId) (lanes : Nat) : State :=
  s.onPair sl fun x d =>
    if d.tetherUp && decide (lanes < fld (d.r32 .twnLinkStatus) 12 8) then
      (if 8 ≤ lanes then (d.setLink 3 lanes).twnRaise x 2 else { d.setLink 1 0 with tether := { d.tether with fails := 0 } })
    else d

def execTetherLaneLoss (sl : SledId) (lanes : Nat) (s : State) : Host.Outcome State Fault Refusal := .next (s.laneLoss sl lanes)

/-- What a training of `lanes` lanes does to an end: UP with 16, DEGRADED with 8 to 15; fewer than 8 after 3 trainings is FAILED. A DEGRADED link that trains
in the background changes only to UP. -/
def Sled.trained (x : Ctx) (d : Sled) (lanes : Nat) : Sled :=
  let live := fun (d : Sled) => ({ d with tether := { heard := x.now, sent := x.now, fails := 0 } } : Sled)
  if d.linkState = 3 then (if 16 ≤ lanes then live ((d.setLink 2 16).twnRaise x 1) else d)
  else if 16 ≤ lanes then live ((d.setLink 2 16).twnRaise x 1)
  else if 8 ≤ lanes then live ((d.setLink 3 lanes).twnRaise x 2)
  else if 2 ≤ d.tether.fails then { d.setLink 4 0 with tether := { d.tether with fails := 3 } }
  else { d.setLink 1 0 with tether := { d.tether with fails := d.tether.fails + 1 } }

/-- TETHER_TRAINING_DONE: a training ends, that of a link in TRAINING or the background training of one in DEGRADED (Table 12.1, R382). -/
def State.trainingDone (s : State) (sl : SledId) (lanes : Nat) : State :=
  if !(s.sled sl).linkOn || !(s.sled (twinOf sl)).linkOn then s
  else
    let f := fun (x : Ctx) (d : Sled) => if d.linkState = 1 ∨ d.linkState = 3 then d.trained x lanes else d
    (s.onSled sl f).onSled (twinOf sl) f

def execTetherTrainingDone (sl : SledId) (lanes : Nat) (s : State) : Host.Outcome State Fault Refusal := .next (s.trainingDone sl lanes)

/-- RETRAIN: training starts from any state. -/
def State.retrain (s : State) (sl : SledId) : State :=
  s.onPair sl fun _ d => if d.linkOn then { d.setLink 1 0 with tether := { d.tether with fails := 0 } } else d

def execTetherRetrain (_who : Requester) (sl : SledId) (s : State) : Host.Outcome State Fault Refusal := .next (s.retrain sl)

/-- A write of TWN_LINK_CTL: RESILVER_PCT within 1 to 100, EN, RETRAIN. A cleared EN takes the end down, and a set one lets the link train (Table 12.1). -/
def State.linkCtlWrite (s : State) (sl : SledId) (v : Word32) : State :=
  let old := (s.sled sl).r32 .twnLinkCtl
  let w := v &&& 0x7F01
  let w := if fld w 14 8 = 0 ∨ 100 < fld w 14 8 then setFld w 14 8 (fld old 14 8) else w
  let s := s.onSled sl fun _ d => d.w32 .twnLinkCtl w
  let s := if !bit w 0 && (s.sled sl).tetherUp then s.linkDown sl else s.trainLink sl
  if bit v 1 then s.retrain sl else s

/-- The frame types of Table 12.3 that are not reserved. -/
def frameTypes : List Nat := [1, 2, 3, 4, 5, 6, 0x10, 0x11, 0x12, 0x13, 0x14, 0x15, 0x20, 0x21, 0x22, 0x23, 0x24, 0x25]

/-- RESERVED_FRAME: a frame of a reserved TYPE is discarded and counted. -/
def execReservedFrame (sl : SledId) (type : BitVec 8) (s : State) : Host.Outcome State Fault Refusal :=
  .next (if frameTypes.contains type.toNat then s else s.onSled sl fun _ d => { d with reservedFrames := d.reservedFrames + 1 })

/-! ### Acknowledgments and loss (R396 to R399) -/

/-- Take the oldest frame from a node to the active Rack Factor whose body `f` accepts; an isolated sled reaches no Factor (R397). -/
def State.takeFrom {α : Type} (s : State) (n : Node) (f : MailBody → Option α) : State × Option α :=
  let cut := match n with | .sled sl => s.isolatedPort sl | .rf _ => false
  if cut then (s, none) else s.takeMail (.rf s.activeRf) fun m => if m.src = n then f m.body else none

/-- The sled is one the Rack Factor awaits ACKs of. -/
def State.counted (s : State) (sl : SledId) : Bool := let k := s.rackOf sl; decide (k = 4 ∨ k = 5 ∨ k = 7)

/-- ACK: it is the verdict for a twin that waits for the holder's ACK of a boundary (R396). -/
def State.takeAck (s : State) (sl : SledId) : State :=
  let m := s.takeFrom (.sled sl) fun b => match b with | .ack n => some n | _ => none
  match m.2 with
  | none => s
  | some n =>
    let s := { m.1 with rack := { m.1.rack with acked := mset m.1.rack.acked sl.val (some n) } }
    match mget s.rack.awaits (twinOf sl).val with
    | some w => if w.toNat ≤ n.toNat then s.verdictAlive (twinOf sl) else s
    | none => s

def execAck (sl : SledId) (s : State) : Host.Outcome State Fault Refusal := .next (s.takeAck sl)

/-- ACK_TIMEOUT: 100 µs after a boundary without the sled's ACK for it, the Rack Factor queues a PING (R398). -/
def State.ackTimeout (s : State) (sl : SledId) : State :=
  let b := s.activeRf
  let r := s.rf b
  if !r.up || !r.bell.running || !s.counted sl || mget s.rack.acked sl.val = some r.count || bit s.rack.late sl.val then s
  else
    let s := s.upTo (r.bell.startedAt + 100000)
    let s := { s with rack := { s.rack with late := setBit s.rack.late sl.val true, pings := mset s.rack.pings sl.val none } }
    s.onCourier (.rf b) fun k => { k with tx := k.tx ++ [{ bytes := [BitVec.ofNat 8 sl.val, 1, BitVec.ofNat 8 r.count.toNat, 0] }] }

def execAckTimeout (sl : SledId) (s : State) : Host.Outcome State Fault Refusal := .next (s.ackTimeout sl)

/-- A sled is LOST: its port is isolated, its lease moves to the twin, and the twin goes on for the pair (R397, R398). -/
def State.declareLost (s : State) (sl : SledId) : State :=
  let w := twinOf sl
  let s := (s.setRack sl 6 0).cutOff sl
  let s := { s with rack := { s.rack with late := setBit s.rack.late sl.val false, pings := mset s.rack.pings sl.val none } }
  let s := if s.counted w then
      let odd := bit ((s.rf s.activeRf).r32 .twnRkLease) (sl.val / 2)
      let s := if odd = decide (sl.val % 2 = 1) then
          (s.onActive fun f => f.setRegBit .twnRkLease (sl.val / 2) !odd).onSled w fun x d =>
            let d := (d.setRegBit .twnState 4 true).twnRaise x 6
            { d with bell := { d.bell with leaseUntil := some (d.count + 4) } }
        else s
      let s := { s with rack := { s.rack with awaits := mset s.rack.awaits w.val none } }
      s.holderGoesOn w true
    else s
  s.noSledCheck

/-- SLED_LOST: no PONG within 100 µs of the end of the PING. -/
def State.sledLost (s : State) (sl : SledId) : State :=
  match mget s.rack.pings sl.val with
  | some e => if bit s.rack.late sl.val && s.counted sl then (s.upTo (e + 100000)).declareLost sl else s
  | none => s

def execSledLost (sl : SledId) (s : State) : Host.Outcome State Fault Refusal := .next (s.sledLost sl)

/-- DYING: a sled that ended under Stop at a settle (R399). -/
def State.takeDying (s : State) (sl : SledId) : State :=
  let m := s.takeFrom (.sled sl) fun b => match b with | .dying => some () | _ => none
  match m.2 with
  | none => s
  | some _ => m.1.declareLost sl

def execDying (sl : SledId) (s : State) : Host.Outcome State Fault Refusal := .next (s.takeDying sl)

/-- MGMT_EVENT: a management event frame of a Factor is received (R448). -/
def State.takeEvent (s : State) (n : Node) : State :=
  let m := s.takeFrom n fun b => match b with | .event r => some r | _ => none
  match m.2 with
  | none => s
  | some r => { m.1 with rack := { m.1.rack with events := m.1.rack.events ++ [(n, r)] } }

def execMgmtEvent (n : Node) (s : State) : Host.Outcome State Fault Refusal := .next (s.takeEvent n)

/-! ### Joining (R402, Table 12.7) -/

/-- The Rack Factor's configuration digest, as TWN_RK_CFG_DIGEST shows it. -/
def RackFactor.digest (r : RackFactor) : BitVec 384 := ofBytes 384 ((List.range 12).flatMap fun i => toBytes (r.r32 .twnRkCfgDigest i) 4)

/-- Push the configuration to a sled. -/
def State.pushConfig (s : State) (sl : SledId) : State := { s with mail := s.mail ++ [Mail.mk (.rf s.activeRf) (.sled sl) (.cfg true none)] }

/-- A JOIN is decided by the first rule of Table 12.7 that applies; a mismatch that the Sled Factor reports counts as a digest that differs (R407). -/
def State.joinCheck (s : State) (sl : SledId) (m : JoinMsg) : State :=
  let d := s.sled sl
  let r := s.rf s.activeRf
  if !r.up || decide (d.rackState ≠ 1) then s
  else
    let s := { s with rack := { s.rack with joins := mset s.rack.joins sl.val (some m) } }
    let s := s.onActive fun f => f.w32 .twnRkSled (setFld (setFld (f.r32 .twnRkSled sl.val) 23 16 m.fwMajor.toNat) 31 24 m.fwMinor.toNat) sl.val
    if m.fwMajor ≠ Config.rfFw.1 then s.setRack sl 2 1
    else if m.digest ≠ r.digest ∨ d.cfgMismatch then (s.setRack sl 2 2).pushConfig sl
    else s.setRack sl 3 0

/-- JOIN: the oldest JOIN of the sled reaches the active Rack Factor. -/
def State.joinRow (s : State) (sl : SledId) : State :=
  let m := s.takeFrom (.sled sl) fun b => match b with | .join m => some m | _ => none
  match m.2 with
  | none => s
  | some j => m.1.joinCheck sl j

/-- The active Rack Factor decides a JOIN; at the standby nothing comes of the row (R402, R403). -/
def execJoin (sl : SledId) (b : RfId) (s : State) : Host.Outcome State Fault Refusal := .next (if b = s.activeRf then s.joinRow sl else s)

/-! ### TWN_RK_CTL (R397, R402, R405, R413) -/

def State.drain (s : State) (sl : SledId) : State := { s with rack := { s.rack with drains := setBit s.rack.drains sl.val true } }
def State.isolate (s : State) (sl : SledId) : State := s.cutOff sl
/-- A sled that start-up left able to serve joins. -/
def State.startJoin (s : State) (sl : SledId) : State := (s.setRack sl 1 0).sendJoin sl

/-- RELEASE undoes ISOLATE. A LOST sled, which is not trusted, then rejoins without the protected tenants its twin has taken over, and a drained one joins anew (R413, R402). -/
def State.release (s : State) (sl : SledId) : State :=
  let s := { s with rack := { s.rack with isolated := setBit s.rack.isolated sl.val false } }
  let k := s.rackOf sl
  let serves := decide (fld ((s.sled sl).r32 .service) 2 0 = 1 ∨ fld ((s.sled sl).r32 .service) 2 0 = 2)
  if serves && decide (k = 0 ∨ k = 6) then
    (if k = 6 then s.onSled sl fun x d => (allTenants.filter d.protectedT).foldl (fun (d : Sled) t => d.takeOut x t) d else s).startJoin sl
  else s

def execDrain (_who : Requester) (sl : SledId) (s : State) : Host.Outcome State Fault Refusal := .next (s.drain sl)
def execIsolate (_who : Requester) (sl : SledId) (s : State) : Host.Outcome State Fault Refusal := .next (s.isolate sl)
def execRelease (_who : Requester) (sl : SledId) (s : State) : Host.Outcome State Fault Refusal := .next (s.release sl)
def execPushCfg (_who : Requester) (sl : SledId) (s : State) : Host.Outcome State Fault Refusal := .next (s.pushConfig sl)

/-- A write of TWN_RK_CTL: what its bits ask for the sled in [4:0]. -/
def State.rkCtlWrite (s : State) (b : RfId) (v : Word32) : State :=
  if b ≠ s.activeRf ∨ 16 ≤ fld v 4 0 then s
  else
    let sl : SledId := Fin.ofNat 16 (fld v 4 0)
    let s := if bit v 8 then s.drain sl else s
    let s := if bit v 9 then s.isolate sl else s
    let s := if bit v 10 then s.release sl else s
    if bit v 11 then s.pushConfig sl else s

/-! ### The Rack Factors' roles (R30, R403, R473) -/

/-- The Rack Factor that is not `b`. -/
def otherRf (b : RfId) : RfId := if b = 0 then 1 else 0

/-- One Rack Factor is left: SIMPLEX, and a report (R30). -/
def State.simplex (s : State) : State :=
  let a := s.activeRf
  (s.setRf a ((s.rf a).setRegBit .twnRkRole 2 true)).report (.rf a) .rackSimplex

/-- What a state copy carries of the rack block's registers: the sleds' states, the leases, the configuration digest and the rack manifest (R19). -/
def RackFactor.copyFrom (r a : RackFactor) : RackFactor :=
  let r := (List.range 16).foldl (fun (r : RackFactor) i => r.w32 .twnRkSled (a.r32 .twnRkSled i) i) r
  let r := (List.range 12).foldl (fun (r : RackFactor) i => r.w32 .twnRkCfgDigest (a.r32 .twnRkCfgDigest i) i) r
  let r := (List.range 256).foldl (fun (r : RackFactor) i => r.w32 .manifest (a.r32 .manifest i) i) r
  r.w32 .twnRkLease (a.r32 .twnRkLease)

/-- RF_STATE_COPY: the standby has the state copy of this settle: the active one's registers and its rack state (R19, R403). -/
def State.stateCopy (s : State) (b : RfId) : State :=
  let a := s.rf s.activeRf
  if b = s.activeRf || !(s.rf b).up || !a.up then s else s.onRf b fun r => { r.copyFrom a with copyGot := true, copy := s.rack }

def execRfStateCopy (b : RfId) (s : State) : Host.Outcome State Fault Refusal := .next (s.stateCopy b)

/-- The rack state that a new active Rack Factor goes on from: that of its last copy, but for what stands in the fabric and in the ports (R19, R496). -/
def Rack.takeOver (now copy : Rack) : Rack :=
  { copy with isolated := now.isolated, ports := now.ports, videos := (List.range 4).foldl (fun m p => mmod m p fun v => { v with frame := none }) now.videos }

/-- The active Rack Factor renews the lease of every sled it counts on (R403). -/
def State.renewLeases (s : State) (b : RfId) : State :=
  let r := s.rf b
  (List.range 16).foldl (fun (s : State) n =>
    let sl : SledId := Fin.ofNat 16 n
    if s.counted sl && !s.isolatedPort sl && !(s.sled sl).bell.absent then s.onSled sl fun x d => d.takeLease x ((r.r32 .twnRkLease).truncate 8) r.count false else s) s

/-- RF_TAKEOVER: at a boundary the standby that missed two copies, and whose Courier query found no answer within 100 µs of its end, becomes active. It goes on from the
state it holds, keeps the Bell and the lease table, and renews every lease; the frames that the video ports were sending end (R403, R459, R496). -/
def State.rfTakeover (s : State) (b : RfId) : State :=
  let a := s.activeRf
  let r := s.rf b
  match r.askedEnd with
  | none => s
  | some e =>
    if b = a || !r.up || !r.bell.running || r.missed < 2 then s
    else
      let s := s.upTo (e + 100000)
      let s := s.onRf a fun r => { r.setRegBit .twnRkRole 1 false with up := false }
      let s := s.onRf b fun r => { r.setRegBit .twnRkRole 1 true with missed := 0, asked := false, askedEnd := none, activeAt := s.now }
      let s := State.simplex { s with rack := s.rack.takeOver r.copy }
      (s.activeBoundary b).renewLeases b

def execRfTakeover (b : RfId) (s : State) : Host.Outcome State Fault Refusal := .next (s.rfTakeover b)

/-- RACK_SIMPLEX: the standby fails. -/
def State.rackSimplex (s : State) : State :=
  let b := otherRf s.activeRf
  if !(s.rf b).up || !(s.rf s.activeRf).up then s else (s.onRf b fun r => { r with up := false }).simplex

def execRackSimplex (s : State) : Host.Outcome State Fault Refusal := .next s.rackSimplex

end Sys2Proof.Machine
end

