-- ==== Sys2Proof/Machine/Power.lean ====
section
/-! DEFINITION. Power: rail samples and stages, the ends of a sled, the clock, non-volatile writes, and the energy of the ledger (13_power.md). -/
namespace Sys2Proof.Machine

/-- Change the power state of a sled. -/
def Sled.onPower (d : Sled) (f : Power → Power) : Sled := { d with power := f d.power }
/-- Set a bit of PWR_STATUS. -/
def Sled.pwrBit (d : Sled) (k : Nat) (b : Bool) : Sled := d.setRegBit .pwrStatus k b

/-! ### Rail samples (R418, R419) -/

/-- A sample has a resolution of 10 mV. -/
def sampled (mv : Nat) : Nat := mv - mv % 10
/-- Since when a condition has held. -/
def holdsSince (now : Nat) (was : Option Nat) (b : Bool) : Option Nat := if b then some (was.getD now) else none
/-- A condition has held for 1 ms. -/
def heldMs (now : Nat) (since : Option Nat) : Bool := match since with | some t => decide (t + 1000000 ≤ now) | none => false

/-- Warn is entered: the tick counts in PWR_WARN_TICKS. -/
def State.warnOn (s : State) (sl : SledId) : State :=
  let d := s.sled sl
  if bit (d.r32 .pwrStatus) 0 then s
  else
    (s.onSled sl fun _ d =>
      let d := d.pwrBit 0 true
      if d.power.warnCounted then d else (d.bump32 .pwrWarnTicks).onPower fun p => { p with warnCounted := true }).pwrRaise sl 0

/-- Guard is entered: a fuse pulse that runs is cut short (R427). -/
def State.guardOn (s : State) (sl : SledId) : State :=
  if bit ((s.sled sl).r32 .pwrStatus) 1 then s else (s.onSled sl fun x d => (d.fuseCut x).pwrBit 1 true).pwrRaise sl 2

/-- Stop at the settle is declared: it ends the sled after step 4 of the running settle, or of the next one once step 4 has finished; a sled without a Bell yet has no settle
to wait for, and start-up ends (R422, R471). -/
def State.stopDeclared (s : State) (sl : SledId) : State :=
  let d := s.sled sl
  if bit (d.r32 .pwrStatus) 2 then s
  else
    let here := decide (d.bell.settle ≠ 5 ∧ d.bell.settle ≠ 6)
    let s := s.onSled sl fun _ d => (d.pwrBit 2 true).onPower fun p => { p with stopAfter := some (if here then d.count else d.count + 1) }
    let s := ((s.pwrRaise sl 4).warnOn sl).guardOn sl
    if d.bell.running then s else s.endSled sl false

/-- The samples of a running sled. -/
def State.takeSample (s : State) (sl : SledId) (vin v12 vpp : Nat) : State :=
  let d := s.sled sl
  let p := d.power
  let lo44 := decide (vin < 44000)
  let lo42 := decide (vin < 42000)
  let hi60 := decide (60000 < vin)
  let lo12 := decide (v12 < 11000)
  let loPp := decide (vpp < 1750)
  let hiPp := decide (1850 < vpp)
  let s := s.onSled sl fun x d =>
    let d := ((d.w32 .pwrVin (BitVec.ofNat 32 vin)).w32 .pwrV12 (BitVec.ofNat 32 v12)).w32 .pwrVpp (BitVec.ofNat 32 vpp)
    let d := if p.lastSample.isNone || decide (vin < (d.r32 .pwrVinMin).toNat) then d.w32 .pwrVinMin (BitVec.ofNat 32 vin) else d
    d.onPower fun p => { p with
      below44 := lo44, below42 := lo42, above60 := hi60, low12 := lo12, lowVpp := loPp, highVpp := hiPp, lastSample := some x.now
      warnOk := holdsSince x.now p.warnOk (decide (44500 ≤ vin))
      guardOk := holdsSince x.now p.guardOk (decide (42500 ≤ vin ∧ 11200 ≤ v12 ∧ 1760 ≤ vpp ∧ vpp ≤ 1840))
      stopRun := if vin < 40000 then p.stopRun + 1 else 0 }
  let s := if p.above60 && hi60 then s.pwrRaise sl 7 else s
  let s := if p.below44 && lo44 then s.warnOn sl else s
  let cond := fun (k : Nat) (b : Bool) (s : State) => if b then (s.onSled sl fun _ d => d.pwrBit k true).guardOn sl else s
  let s := cond 3 (p.below42 && lo42) s
  let s := cond 4 (p.low12 && lo12) s
  let s := cond 5 ((p.lowVpp && loPp) || (p.highVpp && hiPp)) s
  let s := if 100 ≤ (s.sled sl).power.stopRun then s.stopDeclared sl else s
  let d := s.sled sl
  if d.ended || bit (d.r32 .pwrStatus) 2 then s
  else
    let s := if bit (d.r32 .pwrStatus) 0 && heldMs s.now d.power.warnOk then (s.onSled sl fun _ d => d.pwrBit 0 false).pwrRaise sl 1 else s
    if bit (d.r32 .pwrStatus) 1 && heldMs s.now d.power.guardOk then
      (s.onSled sl fun _ d => d.w32 .pwrStatus (setFld (setBit (d.r32 .pwrStatus) 1 false) 5 3 0)).pwrRaise sl 3
    else s

/-- RAIL_SAMPLE: 1 µs after the last one. On a sled that has stopped, only the return of its input is watched (R424). -/
def State.railSample (s : State) (sl : SledId) (vin v12 vpp : Nat) : State :=
  let s := match (s.sled sl).power.lastSample with
    | some t => s.upTo (t + 1000)
    | none => s
  if (s.sled sl).ended then
    s.onSled sl fun x d => d.onPower fun p => { p with goodSince := holdsSince x.now p.goodSince (decide (44500 ≤ sampled vin)), lastSample := some x.now }
  else s.takeSample sl (sampled vin) (sampled v12) (sampled vpp)

/-- IMMEDIATE_STOP: a comparator trip (R423). A fuse pulse that runs leaves its bit undefined (R427). -/
def State.immediateStop (s : State) (sl : SledId) (vin v12 : Nat) : State :=
  if (s.sled sl).ended || !(decide (vin < 38000 ∨ v12 < 10200 ∨ 63000 < vin)) then s
  else ((s.onSled sl fun x d => d.fuseCut x).report (.sled sl) .stop).endSled sl false

def execImmediateStop (sl : SledId) (vin v12 : Nat) (s : State) : Host.Outcome State Fault Refusal := .next (s.immediateStop sl vin v12)

/-- POWER_RESTORE: the input has held for 100 ms, and the sled leaves reset (R424). -/
def State.powerRestore (s : State) (sl : SledId) : State :=
  let d := s.sled sl
  match d.power.goodSince with
  | some t => if d.ended then (s.upTo (t + 100000000)).setSled sl { (default : Sled) with freeCtr := d.freeCtr, nv := d.nv } else s
  | none => s

def execPowerRestore (sl : SledId) (s : State) : Host.Outcome State Fault Refusal := .next (s.powerRestore sl)

/-- CLRMIN. -/
def execClrmin (_who : Requester) (sl : SledId) (s : State) : Host.Outcome State Fault Refusal :=
  .next (s.onSled sl fun _ d => d.w32 .pwrVinMin (d.r32 .pwrVin))

/-- A write of PWR_CTL: FTARGET within 600 to 2,400, and CLRMIN (Table 13.5). -/
def Sled.pwrCtlWrite (d : Sled) (v : Word32) : Sled :=
  let d := if 600 ≤ fld v 11 0 ∧ fld v 11 0 ≤ 2400 then d.w32 .pwrCtl (v &&& 0xFFF) else d
  if bit v 16 then d.w32 .pwrVinMin (d.r32 .pwrVin) else d

/-! ### The clock (R425) -/

/-- The core supply in mV of the part's fused voltage-frequency table for a clock: entry j is for 600 + 100j MHz (Table 15.4). A clock between two entries takes the higher one
(DESIGN CHOICE, log 121). -/
def Sled.fusedMv (d : Sled) (mhz : Nat) : Nat :=
  let j := min 18 ((mhz - 600 + 99) / 100)
  fld (d.r32 .fusRow (108 + j / 2)) (16 * (j % 2) + 15) (16 * (j % 2))

/-- The clocks counted so far are kept, the core clock becomes `mhz`, and the core supply of both compute dies follows it (R425). -/
def Sled.setClock (x : Ctx) (d : Sled) (mhz : Nat) : Sled :=
  let d := { d with clk := d.clk + (x.now - d.clkAt) * (d.r32 .pwrClk).toNat, clkAt := x.now }
  (d.w32 .pwrClk (BitVec.ofNat 32 mhz)).onPower fun p => { p with coreMv := d.fusedMv mhz }

/-- CLOCK_STEP: 10 µs after the last step, at most 100 MHz toward the lowest of FTARGET, the highest clock within 1,350 W, and the highest within 105 °C. -/
def State.clockStep (s : State) (sl : SledId) (powerMax thermalMax : Nat) : State :=
  let d := s.sled sl
  if d.ended then s
  else
    let s := s.upTo (d.clkAt + 10000)
    let want := fld (d.r32 .pwrCtl) 11 0
    let top := max 600 (min 2400 (min want (min powerMax thermalMax)))
    let cur := (d.r32 .pwrClk).toNat
    let new := if cur < 600 ∨ 2400 < cur then top else if cur < top then min top (cur + 100) else max top (cur - 100)
    let pc := decide (powerMax < want)
    let tc := decide (thermalMax < want)
    let s := s.onSled sl fun x d => ((d.setClock x new).pwrBit 7 pc).pwrBit 6 tc
    if new < cur && (pc || tc) then s.pwrRaise sl 6 else s

def execClockStep (sl : SledId) (powerMax thermalMax : Nat) (s : State) : Host.Outcome State Fault Refusal := .next (s.clockStep sl powerMax thermalMax)

/-! ### Energy (R86, R430 to R432) -/

/-- A coefficient is scaled by (V / 0.75 V)² (Table 13.4). -/
def scaledV (i : Nat) : Bool := decide (i ≤ 7 ∨ i = 16 ∨ i = 17)
/-- The modelled energy of a tenant's counts in fJ at the core supply, which is that of both compute dies (R425, R431); 64 is the system. -/
def Sled.modelled (d : Sled) (t : Nat) : Nat :=
  let mv := d.power.coreMv
  (List.range 32).foldl (fun a i =>
    let e := mget d.counts (t * 32 + i) * (d.r32 .pwrCoef i).toNat
    a + if scaledV i then e * (mv * mv) / 562500 else e) 0

/-- Energy for a tenant's running tick: before step 3 commits the tick just ended, it waits for the commit (R86). -/
def Sled.ledAdd (d : Sled) (t : TenantId) (nj : Nat) : Sled :=
  if d.bell.settle = 1 ∨ d.bell.settle = 2 ∨ d.bell.settle = 3 then d.onTen t fun n => { n with ledNext := n.ledNext + nj }
  else d.w64 .ledCur (d.r64 .ledCur t + BitVec.ofNat 64 nj) t

/-- The cores a tenant has allotted, in force. -/
def Sled.allotCores (d : Sled) (t : TenantId) : Nat := fld (d.ten t).allot 6 0

/-- LEDGER_STEP: `energy` is the measured nJ of the microsecond. The share of S of each enabled tenant goes by its cores; energy below
1 nJ of a modelled sum waits for the next step, and what division leaves goes to LED_SYS (log 59). -/
def State.ledgerStep (s : State) (sl : SledId) (energy : Nat) : State :=
  let d := s.sled sl
  if d.ended then s
  else
    let on := allTenants.filter d.active
    let fj := fun (t : Nat) => mget d.fracs t + d.modelled t
    let dt := fun (t : TenantId) => fj t.val / 1000000
    let rest := (List.range 65).filter fun t => !(on.map Fin.val).contains t
    let dsys := rest.foldl (fun a t => a + fj t / 1000000) 0
    let sum := on.foldl (fun a t => a + dt t) 0 + dsys
    let left := energy - sum
    let total := max 1 d.healthyCores
    let share := fun (t : TenantId) => left * min total (d.allotCores t) / total
    let shared := on.foldl (fun a t => a + share t) 0
    let s := s.onSled sl fun _ d =>
      let d := on.foldl (fun (d : Sled) t => d.ledAdd t (dt t + share t)) d
      let d := (d.w64 .ledPkg (d.r64 .ledPkg + BitVec.ofNat 64 energy)).w64 .ledSys (d.r64 .ledSys + BitVec.ofNat 64 (dsys + (left - shared)))
      let d := { d with counts := [], fracs := (List.range 65).foldl (fun m t => mset m t (fj t % 1000000)) [] }
      let d := d.onPower fun p => { p with pkg := (energy :: p.pkg).take 1000 }
      d.w32 .pwrPkg (BitVec.ofNat 32 (d.power.pkg.foldl (· + ·) 0 / 1000))
    if energy < sum then (s.onSled sl fun _ d => d.w64 .pwrLedExcess (d.r64 .pwrLedExcess + BitVec.ofNat 64 (sum - energy))).pwrRaise sl 8 else s

/-- The measured increment is the output energy of every package regulator, those of the core supply and the others (R430). -/
def execLedgerStep (sl : SledId) (core other : Nat) (s : State) : Host.Outcome State Fault Refusal := .next (s.ledgerStep sl (core + other))

end Sys2Proof.Machine
end

