-- ==== Sys2Proof/Machine/Start.lean ====
section
/-! DEFINITION. Start-up: fuses, images, self-test, the service floor, JOIN, recovery, and the start of the rack (15_startup.md R471 to R477, R481 to R495). -/
namespace Sys2Proof.Machine

/-! ### Images (R475) -/

/-- Bytes of the boot flash. -/
def Sled.flashBytes (d : Sled) (sl : SledId) (a n : Nat) : List Byte := (List.range n).map fun k => d.flashByte sl (a + k)

/-- What a slot's header says: KEYSLOT, FW_MAJOR, FW_MINOR, ROLLBACK, LENGTH. -/
structure ImageHead where
  key : Nat
  major : Nat
  minor : Nat
  rollback : Nat
  length : Nat
deriving DecidableEq, Repr

/-- A slot is valid (R475): its header if so. -/
def Sled.image (d : Sled) (sl : SledId) (slot : Nat) : Option ImageHead :=
  let h := d.flashBytes sl slot 512
  let num := fun (o n : Nat) => bytesNat ((h.drop o).take n)
  let zero := fun (o n : Nat) => ((h.drop o).take n).all fun b => decide (b = 0)
  let key := num 6 1
  let pub := (h.drop 0x20).take 96
  let keyHash := (List.range 12).flatMap fun r => toBytes (d.r32 .fusRow (12 * key + r)) 4
  let len := num 0x10 4
  let magic := decide (h.take 4 = [0x56, 0x4C, 0x46, 0x57]) && decide (num 4 2 = 1)
  let rsv := zero 7 1 && zero 0xD 3 && zero 0x14 12 && zero 0xB0 80 && zero 0x160 160
  let keyOk := decide (key < 4) && decide (sha384 pub = keyHash) && !(keyHash.all fun b => decide (b = 0)) && !bit (d.r32 .fusRow 48) key
  let size := decide (1 ≤ len ∧ len ≤ 29359616)
  let sig := ecdsa384 pub (sha384 (h.take 0x100)) ((h.drop 0x100).take 96)
  let body := decide (sha384 (d.flashBytes sl (slot + 0x200) len) = (h.drop 0x80).take 48)
  if magic && rsv && keyOk && size && sig && body && decide (d.rollbackCount ≤ num 0xC 1) then some ⟨key, num 8 2, num 0xA 2, num 0xC 1, len⟩ else none

/-- An image comes before another: by ROLLBACK, FW_MAJOR, FW_MINOR. -/
def ImageHead.above (a b : ImageHead) : Bool :=
  if a.rollback ≠ b.rollback then decide (b.rollback < a.rollback)
  else if a.major ≠ b.major then decide (b.major < a.major)
  else decide (b.minor < a.minor)

/-- The slot that boots: 0 is A, 1 is B; A when the two are equal. -/
def pickSlot (a b : Option ImageHead) : Option (Nat × ImageHead) :=
  match a, b with
  | some x, some y => if y.above x then some (1, y) else some (0, x)
  | some x, none => some (0, x)
  | none, some y => some (1, y)
  | none, none => none

/-! ### Units (R21, R481, R482) -/

/-- Healthy physical cores of a die: neither fused bad nor failed. -/
def Sled.healthyOn (d : Sled) (t : SelfTest) (die : Nat) : Nat :=
  let bad := (d.r32 .fusRow (55 + 2 * die)) ++ (d.r32 .fusRow (54 + 2 * die))
  (List.range 50).countP fun p => !bit bad p && !bit t.coreFail (50 * die + p)

/-- The units that remain after self-test. -/
def Sled.findUnits (d : Sled) (t : SelfTest) : Units :=
  let h := fun (die : Nat) => d.healthyOn t die
  let off := fun (die : Nat) => decide (h die < 8) || bit t.schedFail die || bit t.l2Fail die
  let dieOff : BitVec 2 := setBit (setBit 0 0 (off 0)) 1 (off 1)
  let f := d.r32 .fusRow 58
  let lost := fun (per : Nat) (w : Nat) => (List.range 2).foldl (fun a die => a + if off die then (2 ^ per - 1) * 2 ^ (per * die) else 0) 0 % 2 ^ w
  let depBad : BitVec 512 := ofBytes 512 ((List.range 16).flatMap fun i => toBytes (d.r32 .fusRow (59 + i)) 4)
  let untrained : BitVec 8 := t.stackFail ||| BitVec.ofNat 8 (fld f 25 18)
  let stackBad : BitVec 8 := untrained
    ||| BitVec.ofNat 8 ((List.range 8).foldl (fun a k => a + if t.bankFail.extractLsb' (64 * k) 64 = 0 then 0 else 2 ^ k) 0)
  { cores := mset (mset [] 0 (if off 0 then 0 else min 48 (h 0))) 1 (if off 1 then 0 else min 48 (h 1))
    dieOff := dieOff
    te := t.teFail ||| BitVec.ofNat 16 (fld f 15 0) ||| BitVec.ofNat 16 (lost 8 16)
    rfe := t.rfeFail ||| BitVec.ofNat 2 (fld f 17 16) ||| dieOff
    porter := t.porterFail ||| dieOff
    depot := t.depotFail ||| depBad
    bank := t.bankFail ||| BitVec.ofNat 512 ((List.range 8).foldl (fun a k => a + if bit untrained k then (2 ^ 64 - 1) * 2 ^ (64 * k) else 0) 0)
    stack := stackBad }

/-- Unit enables (Table 15.1 step 9). -/
def Sled.enableUnits (d : Sled) : Sled :=
  let u := d.units
  let d := (List.range 16).foldl (fun (d : Sled) e => d.setRegBit .teCtl 0 (!bit u.te e) e) d
  let d := (List.range 2).foldl (fun (d : Sled) r => d.setRegBit .rfeCtl 0 (!bit u.rfe r) r) d
  (List.range 16).foldl (fun (d : Sled) i => d.w32 .depEn (~~~(u.depot.extractLsb' (32 * i) 32)) i) d

/-- SERVICE once start-up has found its units (R483, R484, Tables 15.5 and 15.9). -/
def Sled.serviceWord (d : Sled) (t : SelfTest) : Word32 :=
  let u := d.units
  let c := fun (die : Nat) => mget u.cores die
  let b := fun (v : Bool) (k : Nat) => if v then 2 ^ k else 0
  let short := decide (c 0 + c 1 < 96)
  let low := decide (c 0 < 16 ∧ c 1 < 16)
  let unitOff := decide (u.te ≠ 0 ∨ u.rfe ≠ 0 ∨ u.porter ≠ 0 ∨ u.depot ≠ 0)
  let floor := !t.ioFail && t.portOk && decide (u.dieOff ≠ 3) && decide (1 ≤ d.poolStacks) && decide (2 ^ 32 ≤ 64 * d.share)
  let full := !short && !unitOff && decide (u.dieOff = 0 ∧ u.stack = 0)
  BitVec.ofNat 32 ((if !floor then 3 else if full then 1 else 2)
    + b short 8 + b low 9 + b (decide (u.dieOff ≠ 0)) 10 + b unitOff 11 + b (decide (u.stack ≠ 0)) 12 + b (!t.tetherOk) 13)

/-! ### The sled sequence (R471) -/

/-- SERVICE shows `v`, and the Sled Factor writes it to CUR_HEALTH. -/
def Sled.service (d : Sled) (v : Word32) : Sled := (d.w32 .service v).w32 .curHealth (v &&& 0xFFFF)

/-- Start-up ends out of service: NO_SERVICE or RECOVERY, reported (R476, R483, R490). -/
def State.bootFails (s : State) (sl : SledId) (code : Nat) (r : Report) : State :=
  (s.onSled sl fun _ d => d.service (BitVec.ofNat 32 code)).report (.sled sl) r

/-- Step 2: the fuse rows are sensed, and the registers whose reset is "fuse" are loaded (R4). -/
def Sled.senseFuses (sl : SledId) (d : Sled) : Sled :=
  let d := (List.range 128).foldl (fun (d : Sled) r => d.w32 .fusRow (d.fuseRow sl r) r) d
  let d := (List.range 18).foldl (fun (d : Sled) i => d.w32 .pwrCoef (d.r32 .fusRow (75 + i)) i) d
  let d := (d.w32 .pwrStatic (d.r32 .fusRow 107)).w32 .stepping (d.r32 .fusRow 53 &&& 0xFF)
  ((d.w32 .fusDebug (if d.debugClosed then 2 else 0)).w32 .fusBoot (BitVec.ofNat 32 (256 * d.rollbackCount))).w32 .sled (BitVec.ofNat 32 sl.val)

/-- Steps 5 to 10, once an image runs. REG_SPLIT is what firmware holds in the configuration (log 11). -/
def State.bootPackage (s : State) (sl : SledId) (t : SelfTest) : State :=
  let s := s.onSled sl fun x d =>
    let d := { d.setClock x 600 with units := d.findUnits t, mem := [], ecc := [], cache := [] }
    let d := (d.splitWrite Config.rackSplit).setRegBit .regCtl 0 true
    let d := d.enableUnits
    let d := { d with cfg := d.cfg.putManifest d.manifest }
    let d := d.service (d.serviceWord t)
    let d := { d with boot := { d.boot with digest := Config.sledDigest sl.val } }
    if bit (d.r32 .twnLinkCtl) 0 && !t.tetherOk then d.setLink 4 0 else d
  let s := s.trainLink sl
  if fld ((s.sled sl).r32 .service) 2 0 = 3 then s.report (.sled sl) .noService
  else if s.isolatedPort sl then s
  else s.startJoin sl

/-- Step 5 begins only when no Warn or Guard condition holds (R471); a command is one step, so none is entered between two steps of the rest (log 103). -/
def State.startGoesOn (s : State) (sl : SledId) : State :=
  let d := s.sled sl
  match d.boot.waits with
  | none => s
  | some t =>
    if d.ended || decide (fld (d.r32 .pwrStatus) 1 0 ≠ 0) then s
    else (s.onSled sl fun _ d => { d with boot := { d.boot with waits := none } }).bootPackage sl t

/-- A start-up that waits goes on once the stage has been left. -/
def execRailSample (sl : SledId) (vin v12 vpp : Nat) (s : State) : Host.Outcome State Fault Refusal := .next ((s.railSample sl vin v12 vpp).startGoesOn sl)

/-- SLED_POWER_ON: the sequence of Table 15.1 from step 1. Under Warn or Guard it waits before step 5. -/
def State.sledPowerOn (s : State) (sl : SledId) (t : SelfTest) : State :=
  let d := s.sled sl
  if d.ended || decide (fld (d.r32 .service) 2 0 ≠ 0) then s
  else if d.boot.waits.isSome then s.startGoesOn sl
  else
    let s := s.onSled sl fun _ d => d.senseFuses sl
    match t.badRow with
    | some r => s.bootFails sl 3 (.fuseRow r.val)
    | none =>
      if !t.sfdpOk || !(t.mode144 || t.mode114) then s.bootFails sl 4 (.recovery 1)
      else
        let d := s.sled sl
        let a := d.image sl 0
        let b := d.image sl 0x1C00000
        let s := s.onSled sl fun _ d => (((d.setRegBit .fusBoot 1 t.mode144).setRegBit .fusBoot 2 a.isSome).setRegBit .fusBoot 3 b.isSome)
        match pickSlot a b with
        | none => s.bootFails sl 4 (.recovery 2)
        | some (slot, h) =>
          let s := s.onSled sl fun _ d => { d.setRegBit .fusBoot 0 (decide (slot = 1)) with
            boot := { d.boot with rollback := h.rollback, fwMajor := BitVec.ofNat 8 h.major, fwMinor := BitVec.ofNat 8 h.minor, waits := some t } }
          s.startGoesOn sl

def execSledPowerOn (sl : SledId) (t : SelfTest) (s : State) : Host.Outcome State Fault Refusal := .next (s.sledPowerOn sl t)

/-- JOIN_RESEND: every 10 ms until the Rack Factor answers (R472). -/
def State.joinResend (s : State) (sl : SledId) : State :=
  let d := s.sled sl
  if d.ended || decide (d.rackState ≠ 1) then s
  else (s.upTo (d.boot.joinAt + 10000000)).sendJoin sl

def execJoinResend (sl : SledId) (s : State) : Host.Outcome State Fault Refusal := .next (s.joinResend sl)

/-- The sled restarts at step 1: what it keeps without power stays. -/
def Sled.restart (d : Sled) : Sled := { (default : Sled) with freeCtr := d.freeCtr, nv := d.nv }

/-- RECOVERY_IMAGE: an image from the Rack Factor is written to slot B under the NV Guard, and the sled restarts (R476). -/
def State.recoveryImage (s : State) (sl : SledId) (image : List Byte) : State :=
  let d := s.sled sl
  if d.ended || decide (fld (d.r32 .service) 2 0 ≠ 4) || s.isolatedPort sl then s
  else if d.nvGuard then (s.nvRefuse sl).report (.sled sl) .flashRefused
  else s.onSled sl fun _ d =>
    ((List.range (min image.length 0x1C00000)).foldl (fun (d : Sled) i => d.setFlash (0x1C00000 + i) (image.getD i 0xFF)) d).restart

def execRecoveryImage (sl : SledId) (image : List Byte) (s : State) : Host.Outcome State Fault Refusal := .next (s.recoveryImage sl image)

/-! ### The rack's start (R473) -/

/-- A Rack Factor becomes active; alone, it reports RACK_SIMPLEX (R30). -/
def State.becomeActive (s : State) (b : RfId) : State :=
  let s := s.onRf b fun r => { r.setRegBit .twnRkRole 1 true with activeAt := s.now }
  if (s.rf (otherRf b)).up then s else s.simplex

/-- A Rack Factor boots: it shows its letter and the configuration digest, and it queries the other one with a PING. -/
def State.bootRf (s : State) (b : RfId) : State :=
  let dg := Config.rackDigest
  let s := s.onRf b fun r =>
    let r := { r.setRegBit .twnRkRole 0 (decide (b = 1)) with up := true, bootAt := s.now, missed := 0, copyGot := false, peer := false }
    (List.range 12).foldl (fun (r : RackFactor) i => r.w32 .twnRkCfgDigest (dg.extractLsb' (32 * i) 32) i) r
  s.onCourier (.rf b) fun k => { k with tx := k.tx ++ [{ bytes := [BitVec.ofNat 8 (30 + (otherRf b).val), 1, 0, 0] }] }

/-- A Rack Factor that finds the other one active is the standby, with its Bell and its state. -/
def State.standBy (s : State) (b : RfId) : State :=
  let a := s.rf (otherRf b)
  let s := s.setRf (otherRf b) (a.setRegBit .twnRkRole 2 false)
  (s.onRf b fun r =>
    let r := ((r.w64 .belCount (a.r64 .belCount)).w64 .belTickStart (a.r64 .belTickStart)).w32 .belTickLen (a.r32 .belTickLen)
    let r := ((r.w32 .belPeriod (a.r32 .belPeriod)).w32 .belFrac (a.r32 .belFrac)).w32 .belSettle (a.r32 .belSettle)
    let r := { r.copyFrom a with copy := s.rack }
    r.onBell fun k => { k with running := a.bell.running, startedAt := a.bell.startedAt, acc := a.bell.acc }).belCopies

/-- RACK_FACTOR_BOOT: the first one boots the Rack Factor (DEDUCED, log 134); the next, 10 ms later, makes it active when no PONG has shown it an active peer. When both boot within
that window, A becomes active. -/
def State.rackFactorBoot (s : State) (b : RfId) : State :=
  let r := s.rf b
  let a := s.rf (otherRf b)
  if !r.up then s.bootRf b
  else if bit (r.r32 .twnRkRole) 1 then s
  else
    let s := s.upTo (r.bootAt + 10000000)
    if r.peer then s.standBy b
    else if a.up && decide (a.bootAt ≤ r.bootAt + 10000000 ∧ r.bootAt ≤ a.bootAt + 10000000) then s.becomeActive 0 else s.becomeActive b

def execRackFactorBoot (b : RfId) (s : State) : Host.Outcome State Fault Refusal := .next (s.rackFactorBoot b)

/-- FIRST_BELL: boundary 0, held until every occupied slot has sent JOIN or until 2 s after the Rack Factor became active (R473). -/
def State.firstBell (s : State) : State :=
  let a := s.activeRf
  let r := s.rf a
  if !r.up || !bit (r.r32 .twnRkRole) 1 || s.rack.started then s
  else
    let all := (List.range 16).all fun n => !Config.occupied n || (mget s.rack.joins n).isSome
    let s := if all then s else s.upTo (r.activeAt + 2000000000)
    let s := { s with rack := { s.rack with started := true } }
    let s := (s.boundaryOf a).rackBoundary a
    let g := s.rf a
    if (s.rf (otherRf a)).up then
      s.onRf (otherRf a) fun f => ((f.w32 .belTickLen (g.r32 .belTickLen)).w32 .belSettle (g.r32 .belSettle)).onBell fun k =>
        { k with running := true, startedAt := s.now, acc := g.bell.acc }
    else s

def execFirstBell (s : State) : Host.Outcome State Fault Refusal := .next s.firstBell

end Sys2Proof.Machine
end

