-- ==== Sys2Proof/Machine/Outside.lean ====
section
/-! DEFINITION. Where the machine meets the outside: data ports, video ports, presentation boundaries, and the TAP (16_outside.md, R345). -/
namespace Sys2Proof.Machine

/-! ### Data ports (R501 to R503, R517) -/

/-- The tenant, the sled and EN of a binding. -/
def DataPort.tenant (k : DataPort) : TenantId := tenantOf (fld k.ctl 13 8)
def DataPort.sled (k : DataPort) : SledId := Fin.ofNat 16 (fld k.ctl 19 16)
/-- A ring's size: 2^4 to 2^16 descriptors, none otherwise (R502). -/
def dpSize (log : Nat) : Nat := if 4 ≤ log ∧ log ≤ 16 then 2 ^ log else 0

/-- Bytes that a unit sends on as it reads them: where a word is uncorrectable its bytes are free values, for no rule of the unit gives them (R203, log 64). -/
def Sled.openBytes (x : Ctx) (d : Sled) (bs : List Byte) (bad : List Bool) : Sled × List Byte :=
  if bad.any id then
    ({ d with freeCtr := d.freeCtr + bs.length },
      (List.range bs.length).map fun i => if bad.getD i false then (Config.freeWord x.sl.val (d.freeCtr + i)).setWidth 8 else bs.getD i 0)
  else (d, bs)

/-- What a port finds in a ring: HEAD, a descriptor posted at HEAD (its VA, its buffer and size), a fault, or an uncorrectable header or descriptor (log 41). -/
inductive DpSlot where
  | empty
  | slot (head : Word32) (va buf size : Nat)
  | fault (f : TFault)
  | unread
deriving DecidableEq, Repr

/-- The descriptor at HEAD, read as a user-mode requester of the tenant (R501, R502). -/
def dpNext (x : Ctx) (d : Sled) (k : DataPort) (tx : Bool) : Sled × DpSlot :=
  let t := k.tenant
  let ring := if tx then k.tx else k.rx
  let size := dpSize (if tx then fld k.ctl 29 25 else fld k.ctl 24 20)
  let hdr := (if tx then k.txHdr else k.rxHdr).toNat
  let base := (if tx then k.txRing else k.rxRing).toNat
  if size = 0 then (d, .empty)
  else
    let h := d.uRead x t false hdr 12
    match h.2 with
    | .fault f => (h.1, .fault f)
    | .ok bs bad =>
      let head : Word32 := if ring.opened then ring.head else ofBytes 32 (bs.take 4)
      let tail : Word32 := ofBytes 32 (bs.drop 8)
      if bad.any id then (h.1, .unread)
      else if head = tail ∨ size < (tail - head).toNat then (h.1, .empty)
      else
        let va := base + head.toNat % size * 16
        let e := h.1.uRead x t false va 16
        match e.2 with
        | .fault f => (e.1, .fault f)
        | .ok ds bad => (e.1, if bad.any id then .unread else .slot head va (bytesNat (ds.take 8)) (bytesNat ((ds.drop 8).take 4)))

/-- Write the descriptor word, and then advance HEAD in the header (R502). -/
def dpFinish (x : Ctx) (d : Sled) (k : DataPort) (tx : Bool) (head : Word32) (va word : Nat) : Sled × Option TFault :=
  let w := d.uWrite x k.tenant false (va + 0xC) (toBytes (BitVec.ofNat 32 word) 4)
  match w.2 with
  | some f => (w.1, some f)
  | none => w.1.uWrite x k.tenant false (if tx then k.txHdr else k.rxHdr).toNat (toBytes (head + 1) 4)

/-- The ring of a port moves to a head. -/
def State.dpHead (s : State) (p : Nat) (tx : Bool) (head : Word32) : State :=
  s.onPort p fun k => if tx then { k with tx := { k.tx with head := head, opened := true } } else { k with rx := { k.rx with head := head, opened := true } }

/-- A frame is dropped and counted (R503). -/
def State.dpDrop (s : State) (p : Nat) : State :=
  (s.onRfs fun r => r.w64 .dpRxDrop (r.r64 .dpRxDrop p + 1) p).onPort p fun k => { k with dropped := true }

/-- A fault of a port's access: a record with SOURCE 0x02 (R195, R503). -/
def State.dpRecord (s : State) (p : Nat) (f : TFault) : State :=
  let k := s.port p
  s.onSled k.sled fun x d => d.stage x k.tenant (f.record 2 p 0xFF 0xFFFFFFFF)

/-- DATA_PORT_RX_FRAME: `frame` with its FCS (R499, R503). -/
def State.rxFrame (s : State) (p : Nat) (frame : List Byte) (fcsOk : Bool) : State :=
  let k := s.port p
  if !bit k.ctl 0 || !fcsOk || frame.length < 64 || 9216 < frame.length || k.rx.stalled || !s.inService k.sled then s.dpDrop p
  else
    let body := frame.take (frame.length - 4)
    let halt := fun (s : State) => (s.onPort p fun k => { k with rx := { k.rx with stalled := true } }).dpDrop p
    let stall := fun (s : State) (f : TFault) => halt (s.dpRecord p f)
    let n := dpNext (s.ctx k.sled) (s.sled k.sled) k false
    let s := s.setSled k.sled n.1
    match n.2 with
    | .empty => s.dpDrop p
    | .unread => halt s
    | .fault f => stall s f
    | .slot head va buf size =>
      if size < body.length then s.dpDrop p
      else
        let w := (s.sled k.sled).uWrite (s.ctx k.sled) k.tenant false buf body
        let s := s.setSled k.sled w.1
        match w.2 with
        | some f => stall s f
        | none =>
          let g := dpFinish (s.ctx k.sled) (s.sled k.sled) k false head va (body.length + 2 ^ 16 + if k.dropped then 2 ^ 17 else 0)
          let s := s.setSled k.sled g.1
          match g.2 with
          | some f => stall s f
          | none => ((s.dpHead p false (head + 1)).onPort p fun k => { k with dropped := false }).onSled k.sled fun _ d => d.tally k.tenant.val 10 (8 * body.length)

def execDataPortRxFrame (p : Fin 8) (frame : List Byte) (fcsOk : Bool) (s : State) : Host.Outcome State Fault Refusal := .next (s.rxFrame p.val frame fcsOk)

/-- DATA_PORT_TX_FRAME: a descriptor whose read faults, or whose frame no port may send (log 63), is skipped with LEN 0 and DONE (R502, R503). -/
def State.txFrame (s : State) (p : Nat) : State :=
  let k := s.port p
  if !bit k.ctl 0 || k.tx.stalled || !s.inService k.sled then s
  else
    let n := dpNext (s.ctx k.sled) (s.sled k.sled) k true
    let s := s.setSled k.sled n.1
    let halt := fun (s : State) => s.onPort p fun k => { k with tx := { k.tx with stalled := true } }
    let stall := fun (s : State) (f : TFault) => halt (s.dpRecord p f)
    let done := fun (s : State) (head : Word32) (va word : Nat) =>
      let g := dpFinish (s.ctx k.sled) (s.sled k.sled) k true head va word
      let s := s.setSled k.sled g.1
      match g.2 with
      | some f => stall s f
      | none => s.dpHead p true (head + 1)
    match n.2 with
    | .empty => s
    | .unread => halt s
    | .fault f => stall s f
    | .slot head va buf len =>
      if len < 60 ∨ 9212 < len then done s head va (2 ^ 16)
      else
        let w := (s.sled k.sled).uRead (s.ctx k.sled) k.tenant false buf len
        let s := s.setSled k.sled w.1
        match w.2 with
        | .fault f => done (s.dpRecord p f) head va (2 ^ 16)
        | .ok bs bad =>
          let c := (s.sled k.sled).openBytes (s.ctx k.sled) bs bad
          let s := ((s.setSled k.sled c.1).onPort p fun k => { k with sent := c.2 }).onRfs fun r => r.w64 .dpTx (r.r64 .dpTx p + 1) p
          done (s.onSled k.sled fun _ d => d.tally k.tenant.val 10 (8 * len)) head va (len + 2 ^ 16)

def execDataPortTxFrame (p : Fin 8) (s : State) : Host.Outcome State Fault Refusal := .next (s.txFrame p.val)

/-- RESUME restarts stalled rings; they go on from where they stand. -/
def State.dpResume (s : State) (p : Nat) : State := s.onPort p fun k => { k with rx := { k.rx with stalled := false }, tx := { k.tx with stalled := false } }

def execDataPortResume (_who : Requester) (p : Fin 8) (s : State) : Host.Outcome State Fault Refusal := .next (s.dpResume p.val)

/-! ### Pixels (R505) -/

/-- The channels R, G, B of a pixel as numerators over a denominator: codes of RGB10A2, or FP16 values clamped to [0, 1]. -/
def pixelRgb (fmt : Nat) (bs : List Byte) : List Nat × Nat :=
  let v := bytesNat bs
  if fmt = 2 then ((List.range 3).map fun i => v / 2 ^ (10 * i) % 1024, 1023)
  else ((List.range 3).map fun i =>
    match Fmt.fp16.unpack (v / 2 ^ (16 * i) % 65536) with
    | .nan _ => 0
    | .inf neg => if neg then 0 else 2 ^ 24
    | .fin neg m e => if neg then 0 else min (2 ^ 24) (if 0 ≤ e + 24 then m * 2 ^ (e + 24).toNat else 0), 2 ^ 24)

/-- Kr and Kb in ten-thousandths. -/
def lumaK (color : Nat) : Nat × Nat := if color = 0 then (2126, 722) else (2627, 593)

/-- A code of n bits from num / den: NARROW or FULL, luma or chroma; exact, rounded to nearest even, clamped. -/
def vidCode (n : Nat) (full chroma : Bool) (num : Int) (den : Nat) : Nat :=
  let q : Int := 2 ^ (n - 8)
  let mx : Int := 2 ^ n - 1
  let c := match full, chroma with
    | false, false => divEven ((16 * den + 219 * num) * q) den
    | false, true => divEven ((128 * den + 224 * num) * q) den
    | true, false => divEven (num * mx) den
    | true, true => divEven ((2 * num + den) * mx) (2 * den)
  (max 0 (min mx c)).toNat

/-- Y, and Cb and Cr with their denominators, of a pixel. -/
def pixelY (color : Nat) (c : List Nat) (d : Nat) : Int × Nat :=
  let k := lumaK color
  (k.1 * c.getD 0 0 + (10000 - k.1 - k.2) * c.getD 1 0 + k.2 * c.getD 2 0, 10000 * d)
def pixelC (color : Nat) (c : List Nat) (d : Nat) (red : Bool) : Int × Nat :=
  let k := lumaK color
  let y := (pixelY color c d).1
  if red then (10000 * c.getD 0 0 - y, 2 * d * (10000 - k.1)) else (10000 * c.getD 2 0 - y, 2 * d * (10000 - k.2))

/-- The samples of a line, in the order of their pgroups: Cb Y Cr Y of a pixel pair in 4:2:2, R G B in 4:4:4. -/
def lineSamples (ctl : Word32) (px : List (List Nat × Nat)) : List Nat :=
  let n := if bit ctl 17 then 12 else 10
  let full := bit ctl 18
  let color := fld ctl 21 20
  if bit ctl 16 then px.flatMap fun p => p.1.map fun v => vidCode n full false v p.2
  else (List.range ((px.length + 1) / 2)).flatMap fun i =>
    let a := px.getD (2 * i) ([0, 0, 0], 1)
    let b := px.getD (2 * i + 1) ([0, 0, 0], 1)
    let y := fun (p : List Nat × Nat) => let v := pixelY color p.1 p.2; vidCode n full false v.1 v.2
    let ch := fun (red : Bool) => let v := pixelC color a.1 a.2 red; vidCode n full true v.1 v.2
    [ch false, y a, ch true, y b]

/-- Samples of n bits packed most significant bit first into octets; the last octet is filled with zeros. -/
def packSamples (n : Nat) (v : List Nat) : List Byte :=
  let bits := v.length * n
  let oct := (bits + 7) / 8
  let whole := v.foldl (fun a x => a * 2 ^ n + x) 0 * 2 ^ (8 * oct - bits)
  (List.range oct).map fun i => BitVec.ofNat 8 (whole / 256 ^ (oct - 1 - i))

/-- Octets and pixels of a pgroup (R506). -/
def pgroup (ctl : Word32) : Nat × Nat :=
  match bit ctl 16, bit ctl 17 with
  | false, false => (5, 2)
  | false, true => (6, 2)
  | true, false => (15, 4)
  | true, true => (9, 2)

/-! ### Video frames (R504, R506, R507, R515) -/

/-- Video port `p`. -/
def State.video (s : State) (p : Nat) : VideoPort := mget s.rack.videos p
/-- Change video port `p`. -/
def State.onVideo (s : State) (p : Nat) (f : VideoPort → VideoPort) : State := { s with rack := { s.rack with videos := mmod s.rack.videos p f } }
/-- Set a bit of RFE_VID_STATUS. -/
def State.vidBit (s : State) (p k : Nat) (b : Bool) : State := s.onRfs fun r => r.setRegBit .rfeVidStatus k b p
/-- RFE_VID_STATUS as it reads now. -/
def State.vidStatus (s : State) (p : Nat) : Word32 :=
  let v := s.video p
  setBit (setBit ((s.rf s.activeRf).r32 .rfeVidStatus p) 0 v.frame.isSome) 4 (!v.down)

/-- The PTP time of this instant less Bell time, when PTP is the qualified source. -/
def State.ptpOffset (s : State) : Option Int :=
  let r := s.rf s.activeRf
  if r.src = 2 && bit (r.r32 .belStatus) 4 then r.bell.ptpBase.map fun b => b + s.now - (bellTime s.now r.bell (r.r64 .belTickStart)).toNat else none

/-- A frame starts after a presentation boundary of the sled a port is bound to, whose instant is its reference time (R507); below 1/60 s the port sends nothing for the stride. -/
def State.startFrame (s : State) (sl : SledId) (p : Nat) : State :=
  let r := s.rf s.activeRf
  let ctl := r.r32 .rfeVidCtl p
  if !bit ctl 0 || !bit ctl 1 || decide (fld ctl 11 8 ≠ sl.val) then s
  else
    let d := s.sled sl
    let m := r.mean
    let n := fld d.compositor.stride 15 0 * m.1
    if n * 60 < 1000000000 * m.2 then (s.vidBit p 2 true).onVideo p fun v => { v with frame := none }
    else
      let off := s.ptpOffset
      let s := (s.vidBit p 2 false).vidBit p 3 off.isSome
      let s := s.onVideo p fun v => { v with ptpOff := off.getD v.ptpOff }
      let cmp := d.r32 .rfeCmpCtl
      let shown := if bit cmp 0 && decide (fld cmp 2 1 = p) then d.compositor.out else none
      let t : Int := (d.r64 .belTickStart).toNat + (s.video p).ptpOff
      s.onVideo p fun v => { v with frame := some {
        sled := sl, tenant := tenantOf (fld cmp 29 24), shown := shown, ctl := ctl, raster := r.r32 .rfeVidRaster p
        ts := BitVec.ofInt 32 (t * 9 / 100000), ref := d.bell.startedAt, tframe := n, den := m.2 } }

/-- PRESENTATION_BOUNDARY: the compositor output, and a frame of every port bound to the sled. -/
def State.presentBoundary (s : State) (sl : SledId) : State :=
  if !(s.sled sl).presentDue then s
  else (List.range 4).foldl (fun (s : State) p => s.startFrame sl p) (s.onSled sl fun x d => d.presentation x)

def execPresentationBoundary (sl : SledId) (s : State) : Host.Outcome State Fault Refusal := .next (s.presentBoundary sl)

/-- The octets of a line of the raster. -/
def vidLineOctets (ctl : Word32) (width : Nat) : Nat := let g := pgroup ctl; (width + g.2 - 1) / g.2 * g.1
/-- Octets of a full packet, and packets of a line. -/
def vidPacketOctets (ctl : Word32) : Nat := let g := pgroup ctl; 1200 / g.1 * g.1
def vidPerLine (ctl : Word32) (width : Nat) : Nat := (vidLineOctets ctl width + vidPacketOctets ctl - 1) / vidPacketOctets ctl

/-- Pixels [from, from + n) of line `y` as the output reads them: black without a surface; what a failed read gives is a free value (log 64). -/
def State.vidPixels (s : State) (f : VidFrame) (y x0 n : Nat) : State × List (List Nat × Nat) :=
  match f.shown with
  | none => (s, List.replicate n ([0, 0, 0], 1))
  | some g =>
    let b := fmtBytes g.fmt
    let r := (s.sled f.sled).uRead (s.ctx f.sled) f.tenant false (g.va.toNat + y * g.pitch + x0 * b) (n * b)
    let c := match r.2 with
      | .fault _ => r.1.openBytes (s.ctx f.sled) (List.replicate (n * b) 0) (List.replicate (n * b) true)
      | .ok bs bad => r.1.openBytes (s.ctx f.sled) bs bad
    (s.setSled f.sled c.1, (List.range n).map fun i => pixelRgb g.fmt ((c.2.drop (b * i)).take b))

/-- Big-endian bytes. -/
def be (n v : Nat) : List Byte := (toBytes (BitVec.ofNat (8 * n) v) n).reverse

/-- One's-complement sum of 16-bit words, for a header checksum. -/
def onesSum (bs : List Byte) : Nat :=
  let s := (List.range ((bs.length + 1) / 2)).foldl (fun a i => a + 256 * (bs.getD (2 * i) 0).toNat + (bs.getD (2 * i + 1) 0).toNat) 0
  let s := s % 65536 + s / 65536
  65535 - (s % 65536 + s / 65536)

/-- The IPv4 packet of an ST 2110-20 payload (R506). Identification and the don't-fragment flag are free values, and so is whether a UDP checksum is given
(log 61). `id` gives all three. -/
def vidPacket (r : RackFactor) (p : Nat) (id : Word64) (seq ts : Nat) (marker : Bool) (line pix : Nat) (data : List Byte) : List Byte :=
  let rtp := r.r32 .rfeVidRtp p
  let udp := r.r32 .rfeVidUdp p
  let src := (r.r32 .rfeVidSrcIp p).toNat
  let dst := (r.r32 .rfeVidDstIp p).toNat
  let body := [0x80, BitVec.ofNat 8 (fld rtp 6 0 + if marker then 128 else 0)] ++ be 2 (seq % 65536) ++ be 4 ts ++ be 4 (r.r32 .rfeVidSsrc p).toNat
    ++ be 2 (seq / 65536) ++ be 2 data.length ++ be 2 line ++ be 2 pix ++ data
  let ulen := 8 + body.length
  let ports := be 2 (fld udp 15 0) ++ be 2 (fld udp 31 16) ++ be 2 ulen
  let pseudo := be 4 src ++ be 4 dst ++ [0, 17] ++ be 2 ulen ++ ports ++ [0, 0] ++ body
  let sum := if bit id 17 then (let c := onesSum pseudo; if c = 0 then 65535 else c) else 0
  let head := fun (c : Nat) => [0x45, BitVec.ofNat 8 (4 * fld rtp 13 8)] ++ be 2 (20 + ulen) ++ be 2 (fld id 15 0) ++ be 2 (if bit id 16 then 0x4000 else 0)
    ++ [BitVec.ofNat 8 (fld rtp 23 16), 17] ++ be 2 c ++ be 4 src ++ be 4 dst
  head (onesSum (head 0)) ++ ports ++ be 2 sum ++ body

/-- The destination MAC: of the group for multicast, else DST_MAC (R507). -/
def vidMac (r : RackFactor) (p : Nat) : BitVec 48 :=
  let dst := r.r32 .rfeVidDstIp p
  if 224 ≤ fld dst 31 24 ∧ fld dst 31 24 ≤ 239 then BitVec.ofNat 48 (0x01005E000000 + fld dst 22 0) else BitVec.ofNat 48 (r.r64 .rfeVidDstMac p).toNat

/-- VIDEO_PACKET_SEND: packet k of a frame leaves (43/1,125) TFRAME + k TRS after the reference time. While the link is down nothing is sent (R514). -/
def State.packetSend (s : State) (p : Nat) : State :=
  let v := s.video p
  match v.frame with
  | none => s
  | some f =>
    let w := fld f.raster 15 0
    let h := fld f.raster 31 16
    let per := vidPerLine f.ctl w
    let total := h * per
    let k := f.sent
    let s := s.upTo (f.ref + (f.tframe * (43 * 100 * total + 96 * 1125 * k)) / (1125 * 100 * total * f.den))
    let y := k / per
    let g := pgroup f.ctl
    let x0 := k % per * (1200 / g.1) * g.2
    let n := min (1200 / g.1 * g.2) (w - x0)
    let px := s.vidPixels f y x0 n
    let bits := if bit f.ctl 17 then 12 else 10
    let data := packSamples bits (lineSamples f.ctl px.2)
    let data := data ++ List.replicate ((n + g.2 - 1) / g.2 * g.1 - data.length) 0
    let s := px.1
    let a := s.activeRf
    let r := s.rf a
    let last := decide (total ≤ k + 1)
    let pk := vidPacket r p (Config.freeWord (18 + p) r.freeCtr) v.seq.toNat f.ts.toNat last y x0 data
    let s := s.setRf a { r with freeCtr := r.freeCtr + 1 }
    let s := s.onVideo p fun v =>
      let v := { v with seq := v.seq + 1, frame := if last then none else some { f with sent := k + 1 } }
      if v.down then v else { v with packet := pk, mac := vidMac r p }
    if last then s.onRfs fun r => r.w64 .rfeVidFrames (r.r64 .rfeVidFrames p + 1) p else s

def execVideoPacketSend (p : Fin 4) (s : State) : Host.Outcome State Fault Refusal := .next (s.packetSend p.val)

/-- VIDEO_ARP_REQUEST: answered when it asks for the port's address (R499). -/
def State.arpRequest (s : State) (p : Nat) (ip : Word32) : State :=
  if (s.rf s.activeRf).r32 .rfeVidSrcIp p = ip ∧ !(s.video p).down then s.onVideo p fun v => { v with arps := v.arps + 1 } else s

def execVideoArpRequest (p : Fin 4) (ip : Word32) (s : State) : Host.Outcome State Fault Refusal := .next (s.arpRequest p.val ip)

/-- VIDEO_LINK_CHANGE (R514). -/
def execVideoLinkChange (p : Fin 4) (up : Bool) (s : State) : Host.Outcome State Fault Refusal := .next (s.onVideo p.val fun v => { v with down := !up })

/-- RFE_VID_CTL (R513): no field but EN changes while EN = 1, and EN is set only with a legal raster, payload type and binding. -/
def State.vidCtlWrite (s : State) (p : Nat) (v : Word32) : State :=
  let r := s.rf s.activeRf
  let old := r.r32 .rfeVidCtl p
  let v := v &&& BitVec.ofNat 32 (regInfo .rfeVidCtl).rw
  let ras := r.r32 .rfeVidRaster p
  let w := fld ras 15 0
  let h := fld ras 31 16
  let bad := w % 2 = 1 ∨ w < 2 ∨ 4096 < w ∨ h < 2 ∨ 2160 < h ∨ fld (r.r32 .rfeVidRtp p) 6 0 < 96 ∨ bit v 1 = false
  if bit old 0 && decide (setBit old 0 false ≠ setBit v 0 false) then s.vidBit p 1 true
  else if bit v 0 && !bit old 0 && decide bad then (s.onRfs fun r => r.w32 .rfeVidCtl (setBit v 0 false) p).vidBit p 1 true
  else (s.onRfs fun r => r.w32 .rfeVidCtl v p).vidBit p 1 false

def execRfeVidCtlWrite (_who : Requester) (p : Fin 4) (v : Word32) (s : State) : Host.Outcome State Fault Refusal := .next (s.vidCtlWrite p.val v)

/-- RFE_VID_RASTER: refused while EN = 1 (R513). -/
def State.vidRasterWrite (s : State) (p : Nat) (v : Word32) : State :=
  if bit ((s.rf s.activeRf).r32 .rfeVidCtl p) 0 then s.vidBit p 1 true else (s.onRfs fun r => r.w32 .rfeVidRaster v p).vidBit p 1 false

def execRfeVidRasterWrite (_who : Requester) (p : Fin 4) (v : Word32) (s : State) : Host.Outcome State Fault Refusal := .next (s.vidRasterWrite p.val v)

/-! ### The TAP (R480, R511) -/

/-- Change the TAP of a sled. -/
def Sled.onTap (d : Sled) (f : Tap → Tap) : Sled := { d with tap := f d.tap }

/-- What the boundary register captures: three cells for each of the nine LVCMOS signals; pin levels are free values (log 62). -/
def Sled.captureCells (sl : SledId) (d : Sled) : Sled :=
  let v := (List.range 27).map fun i => Config.freeBool sl.val (d.freeCtr + i)
  { d.onTap fun t => { t with captured := v } with freeCtr := d.freeCtr + 27 }

/-- BYPASS: a one-bit register that captures 0, and the pins belong to the sled. -/
def Sled.tapBypass (d : Sled) : Sled := d.onTap fun t => { t with captured := [false], driving := false }

def execBypass (sl : SledId) (s : State) : Host.Outcome State Fault Refusal := .next (s.onSled sl fun _ d => d.tapBypass)
def execSample (sl : SledId) (s : State) : Host.Outcome State Fault Refusal :=
  .next (s.onSled sl fun _ d => (d.captureCells sl).onTap fun t => { t with driving := false })
def execPreload (sl : SledId) (cells : List Bool) (s : State) : Host.Outcome State Fault Refusal :=
  .next (s.onSled sl fun _ d => d.onTap fun t => { t with cells := cells.take 27, driving := false })
def execExtest (sl : SledId) (s : State) : Host.Outcome State Fault Refusal :=
  .next (s.onSled sl fun _ d => (d.captureCells sl).onTap fun t => { t with driving := true })

/-- IDCODE: the stepping digit, 0x7E01, 0x56D and 1. -/
def Sled.idcode (d : Sled) : Word32 := BitVec.ofNat 32 (2 ^ 28 * fld (d.r32 .stepping) 3 0 + 0x7E01 * 2 ^ 12 + 0x56D * 2 + 1)

def execIdcode (sl : SledId) (s : State) : Host.Outcome State Fault Refusal :=
  .next (s.onSled sl fun _ d => d.onTap fun t => { t with captured := (List.range 32).map fun i => bit d.idcode i, driving := false })

/-- TAP_PRIVATE: BYPASS once debug is closed, which a read-back of the fuse programmer by now may have done; before, invasive debug works only while OPEN = 1. -/
def State.tapPrivate (s : State) (sl : SledId) (op : TapOp) : State :=
  s.onSled sl fun x d =>
    let d := d.fuseNow x
    if d.debugClosed then d.tapBypass
    else if !bit (d.r32 .fusDebug) 0 then d
    else match op with
      | .halt c => if d.coreUp c then d.onCore c fun k => { k with halted := true } else d
      | .letGo c => d.onCore c fun k => { k with halted := false }
      | .read off => match d.class off with
        | .interleaved | .localEcc | .localRaw =>
          let r := d.coRead x off 8
          r.1.onTap fun t => { t with captured := (List.range 64).map fun i => bit (ofBytes 64 r.2.1) i }
        | _ => d
      | .write off v => match d.class off with
        | .interleaved | .localEcc | .localRaw => d.coWrite x off (toBytes v 8)
        | _ => d

def execTapPrivate (sl : SledId) (op : TapOp) (s : State) : Host.Outcome State Fault Refusal := .next (s.tapPrivate sl op)

end Sys2Proof.Machine
end

