-- ==== Sys2Proof/Machine/Cfg.lean ====
section
/-! DEFINITION. Config space: what a read of a register returns, what a write does, pairs with their shadows and held writes, and the reset of a block (00_scope.md R3 to R16). -/
namespace Sys2Proof.Machine

/-! ### What a read returns -/

/-- The rays or probes of an engine that a status counts. -/
def Sled.slotCount (d : Sled) (e : Nat) (f : PoolSlot → Bool) : Nat := (d.eng e).slots.countP fun p => decide (p.2.job ≠ .none) && f p.2
/-- A slot suspended in a callback. -/
def PoolSlot.suspended (p : PoolSlot) : Bool := match p.job with | .ray r => r.susp.isSome | _ => false

/-- TE_STATUS (Table 8.13). -/
def Sled.teStatus (d : Sled) (e : Nat) : Nat :=
  let g := d.eng e
  (if d.slotCount e (fun _ => true) = 0 then 0 else 1) + (match g.holder with
    | none => 0
    | some t => (if g.draining then 4 else 2) + 2 ^ 16 * t.val)

/-- RFE_STATUS (Table 10.13). -/
def Sled.rfeStatus (d : Sled) (r : Nat) : Nat :=
  let f := d.rfe r
  (match f.cur.bind d.item with
    | none => 0
    | some i => 1 + (if i.cmp then 4 else 0) + 2 ^ 8 * i.tenant.val)
    + (if f.progs.any fun p => p.waiting && p.answer.isNone then 2 else 0) + 2 ^ 16 * (d.unitItems 4 r).length

/-- DEP_STATUS (Table 11.9). -/
def Sled.depStatusWord (d : Sled) (n : Nat) : Nat :=
  let q := d.depot n
  q.queue.length + 2 ^ 16 * q.inbox.length + match q.queue.head?.filter (·.started) with
    | none => 0
    | some k => 2 ^ 8 * k.tenant.val + 2 ^ 24 + (if d.mayRun k.item then 0 else 2 ^ 25) + (if k.waitSend then 2 ^ 26 else 0) + (if k.waitRecv then 2 ^ 27 else 0)

/-- PRT_STATUS (Table 6.14): CFG_BAD is stored. -/
def Sled.prtStatus (d : Sled) (die : Nat) : Nat :=
  (if (d.porter die).isSome then 1 else 0) + (d.r32 .prtStatus die).toNat % 4 / 2 * 2 + 2 ^ 8 * (d.unitItems 6 die).length

/-- SCH_CORE[k] (Table 7.8): MASK is stored. -/
def Sled.schCoreWord (d : Sled) (die k : Nat) : Nat :=
  let c : CoreId := Fin.ofNat 96 (die * 48 + k)
  (d.r32 .schCore die k).toNat % 256 + if (d.core c).entry.isSome then 2 ^ 16 + 2 ^ 24 * (d.core c).tenant.val else 0

/-- A register of a sled as it stands now; the fields that follow from other state are computed here. -/
def Sled.live (x : Ctx) (d : Sled) (r : Reg) (i j : Nat) : Word64 :=
  let w := fun (n : Nat) => BitVec.ofNat 64 n
  let v32 : Word32 := d.r32 r i j
  let t := tenantOf i
  match r with
  | .belTime => d.time x
  | .tntStatus => w (setFld v32 12 8 (d.ten t).staged.length).toNat
  | .tntQStatus => w (setFld v32 31 16 ((d.queue t j).head.toNat % 65536)).toNat
  | .schStatus => w (d.usedBy i (fun _ => true) + 2 ^ 16 * d.usedBy i (fun e => decide (e.st = .ready)))
  | .schChStatus => w (2 ^ 29 * (v32.toNat / 2 ^ 29 % 2) + d.usedBy i (fun e => decide (e.channel = j))
      + 2 ^ 16 * d.usedBy i (fun e => decide (e.channel = j ∧ e.st = .ready)))
  | .schCore => w (d.schCoreWord i j)
  | .schTlimit => w (v32.toNat % 2 ^ 13 + 2 ^ 16 * d.usedBy i (fun e => decide (e.tenant = tenantOf j)))
  | .schTrun => w (d.runningCores t)
  | .teStatus => w (d.teStatus i)
  | .tePoolUsed => w (d.slotCount i fun _ => true)
  | .tePoolSusp => w (d.slotCount i PoolSlot.suspended)
  | .teHqStatus => w (setBit (setBit (setFld v32 31 15 (d.inflight i j false)) 2 (d.ringWaits i j false false)) 3 (d.ringWaits i j false true)).toNat
  | .prbRqStatus => w (setBit (setFld v32 31 15 (d.inflight i j true)) 2 (d.ringWaits i j true false)).toNat
  | .teHqCtl => w (setBit v32 1 (bit v32 1 || d.mirror (tenantOf (fld v32 29 24)))).toNat
  | .prbRqCtl => w (setBit v32 1 (bit v32 1 || d.mirror (tenantOf (fld v32 29 24)))).toNat
  | .prtStatus => w (d.prtStatus i)
  | .rfeStatus => w (d.rfeStatus i)
  | .rfeTime => w (min (2 ^ 32 - 1) (v32.toNat + d.rfeTimeNow x i (tenantOf j)))
  | .depStatus => w (d.depStatusWord i)
  | .fusRow => w (if i < 48 ∧ d.debugClosed then 0 else v32.toNat)
  | .pwrTj => w ((Config.freeWord x.sl.val d.freeCtr).toNat % 2 ^ 32)
  | r => if (regInfo r).wide then d.r64 r i j else w v32.toNat

/-- A register of a node as it stands now, in the bits its table gives (R3). -/
def State.live (s : State) (n : Node) (r : Reg) (i j : Nat) : Word64 :=
  let z := fun (v : Word32) => (v.zeroExtend 64 : Word64)
  let v : Word64 := match r with
    | .cslStatus => z (s.cslStatus n)
    | .curStatus => z (s.curStatus n)
    | .rfeVidStatus => z (s.vidStatus i)
    | r => match n with
      | .sled sl => (s.sled sl).live (s.ctx sl) r i j
      | .rf b =>
        let f := s.rf b
        match r with
        | .belTime => bellTime s.now f.bell (f.r64 .belTickStart)
        | r => if (regInfo r).wide then f.r64 r i j else z (f.r32 r i j)
  v &&& BitVec.ofNat 64 (regInfo r).rd

/-- Units whose registers show the passing of time are brought up to now before an access: the fuse programmer, the console's transmitter, the Courier's sending. -/
def State.preRead (s : State) (n : Node) (r : Reg) : State :=
  match r with
  | .cslStatus | .cslEvent | .cslBrklen => s.consoleNow n
  | .curStatus | .curEvent => s.curNow n
  | .fusRow | .fusProgStatus | .fusDebug | .fusBoot => match n with
    | .sled sl => s.onSled sl fun x d => d.fuseNow x
    | .rf _ => s
  | _ => s

/-- A read of a register: its value, and the state afterwards: RXDATA takes a character, the last word of a CUR_RXBUF frees it, and free values are used up. -/
def State.regRead (s : State) (n : Node) (r : Reg) (i j : Nat) : State × Word64 :=
  let s := s.preRead n r
  match r with
  | .cslRxdata =>
    let p := s.rxdataRead n
    (p.1, p.2.zeroExtend 64)
  | .curRxbuf => (if j = 15 then s.curBufFree n i else s, s.live n r i j)
  | .cslStatus | .curStatus => (s.stepFreeAt n, s.live n r i j)
  | .pwrTj =>
    match n with
    | .sled sl => (s.onSled sl fun _ d => d.stepFree, s.live n r i j)
    | .rf _ => (s, s.live n r i j)
  | r => (s, s.live n r i j)

/-! ### What a write does -/

/-- A write under the access codes of Table 0.2: RW bits take the value, a 1 clears a W1C bit unless hardware sets it in the same cycle (R14), and all others stay. -/
def CfgSpace.codeWrite (c : CfgSpace) (now : Nat) (r : Reg) (i j : Nat) (v : Word64) : CfgSpace :=
  let f := regInfo r
  let rw := BitVec.ofNat 64 f.rw
  let cl := BitVec.ofNat 64 f.w1c &&& ~~~(c.raisedAt now (regOff r i j))
  let apply := fun (old : Word64) => ((old &&& ~~~rw) ||| (v &&& rw)) &&& ~~~(v &&& cl)
  if f.wide then c.w64 r (apply (c.r64 r i j)) i j
  else c.w32 r ((apply ((c.r32 r i j).zeroExtend 64)).truncate 32) i j

/-- A write of SCH_CH_CFG (R247). -/
def Sled.chCfgWrite (d : Sled) (die ch : Nat) (v : Word32) : Sled :=
  let old := d.r32 .schChCfg die ch
  let v := v &&& BitVec.ofNat 32 (regInfo .schChCfg).rw
  let v := setFld v 20 8 (min 4096 (fld v 20 8))
  let used := decide (d.usedBy die (fun e => decide (e.channel = ch)) ≠ 0)
  let second := bit v 2 && (List.range 8).any fun k => decide (k ≠ ch) && bit (d.r32 .schChCfg die k) 2
  let v' := if second then setBit v 2 false else v
  let moved := decide (fld v' 0 0 ≠ fld old 0 0 ∨ fld v' 6 4 ≠ fld old 6 4 ∨ fld v' 2 2 ≠ fld old 2 2)
  let bad := used && moved
  let new := if bad then setFld (setFld (setFld v' 0 0 (fld old 0 0)) 6 4 (fld old 6 4)) 2 2 (fld old 2 2) else v'
  (d.w32 .schChCfg new die ch).setRegBit .schChStatus 29 (bad || second) die ch

/-- SCH_CH_CFG_WRITE. -/
def execSchChCfgWrite (_who : Requester) (sl : SledId) (die : DieId) (ch : Fin 8) (v : Word32) (s : State) : Host.Outcome State Fault Refusal :=
  .next (s.onSled sl fun _ d => d.chCfgWrite die ch v)

/-- A write of GO or FLUSH in a tenant's grow page; both at once act as GO (Table 10.15). -/
def Sled.growCtlWrite (d : Sled) (t : TenantId) (r : Nat) (v : Word32) : Sled :=
  if bit v 0 then d.growAnswer t r false else if bit v 1 then d.growAnswer t r true else d

/-- FUS_PROG: ROW is kept, and SEND asks for it. -/
def State.fusProgWrite (s : State) (sl : SledId) (v : Word32) : State :=
  let s := s.onSled sl fun _ d => d.w32 .fusProg (v &&& 0x7F)
  if bit v 31 then s.fuseProgram sl else s

/-- Whether a requester's write to a register is taken at all: the twin block's keys, ranges and logs take the Sled Factor's only (Table 12.8). -/
def writeTaken (who : Requester) (r : Reg) : Bool :=
  match r with
  | .twnKey | .twnRange | .twnJournalBase | .twnJournalSize | .twnUndoBase | .twnUndoSize => decide (who = .factor)
  | _ => true

/-- A write to a register of a sled; `frame` is the tenant that a frame from another sled carries (Table 12.2). -/
def State.sledWrite (s : State) (who : Requester) (sl : SledId) (r : Reg) (i j : Nat) (v : Word64) (frame : Option TenantId := none) : State :=
  let v32 : Word32 := v.truncate 32
  let t := tenantOf i
  let on := fun (f : Ctx → Sled → Sled) => s.onSled sl f
  match r with
  | .tntCtl => s.onTnt who sl t fun _ d => d.tntCtlWrite t v32
  | .tntAllot => s.onTnt who sl t fun _ d => d.tntAllotWrite t v32
  | .tntFlogBase => s.onTnt who sl t fun _ d => d.flogBaseWrite t v
  | .tntPtroot | .tntFlogHead => s.onTnt who sl t fun x d => { d with cfg := d.cfg.codeWrite x.now r i j v }
  | .tntReset => if bit v 0 then s.resetGo sl t else s
  | .tntQBase | .tntQHdr => s.onTnt who sl t fun x d => if d.qOn t j then d else { d with cfg := d.cfg.codeWrite x.now r i j v }
  | .tntQCtl => s.onTnt who sl t fun x d => d.qCtlWrite x t j v32
  | .schChCfg => on fun _ d => d.chCfgWrite i j v32
  | .schTlimit => on fun _ d => d.w32 .schTlimit (BitVec.ofNat 32 (min 4096 (fld v 12 0))) i j
  | .mmuTlbiCmd => s.tlbiWrite who frame sl v32
  | .regSplit => on fun _ d => d.splitWrite v32
  | .regScrub => if fld v 7 0 ≤ 168 then on fun _ d => d.w32 .regScrub (v32 &&& 0xFF) else s
  | .regCtl => on fun _ d => if bit v 0 then d.w32 .regCtl 1 else d
  | .regEntry => on fun _ d => d.regEntryWrite i v
  | .prtCtl => on fun _ d => d.prtCtlWrite i v32
  | .teHqCtl => on fun x d => d.ringCtlWrite x hitRing i j v32
  | .prbRqCtl => on fun x d => d.ringCtlWrite x resRing i j v32
  | .rfeCmpCtl => s.cmpCtlWrite sl v32
  | .rfeCmpStride => on fun _ d => d.strideWrite v32
  | .rfeGrowCtl => on fun _ d => d.growCtlWrite t j v32
  | .twnLinkCtl => s.linkCtlWrite sl v32
  | .twnKey => on fun _ d => d.w32 .twnKey v32 i
  | .twnRange => on fun _ d => d.rangeWrite i v
  | .pwrCtl => on fun _ d => d.pwrCtlWrite v32
  | .fusProg => s.fusProgWrite sl v32
  | .fusDebug => on fun _ d => d.fusDebugWrite v32
  | r => on fun x d => { d with cfg := d.cfg.codeWrite x.now r i j v }

/-- A write to a register of the rack block, the data ports or the video ports (Tables 12.13, 16.4). The Rack Factors hold one set of port registers. -/
def State.rackWrite (s : State) (b : RfId) (r : Reg) (i j : Nat) (v : Word64) : State :=
  let v32 : Word32 := v.truncate 32
  let both := s.onRfs fun f => { f with cfg := f.cfg.codeWrite s.now r i j v }
  match r with
  | .twnRkCtl => s.rkCtlWrite b v32
  | .twnRkDpCtl => if bit v 1 then both.dpResume i else both
  | .rfeVidCtl => s.vidCtlWrite i v32
  | .rfeVidRaster => s.vidRasterWrite i v32
  | .curRkIso => s.onRf b fun f => f.w32 .curRkIso (v32 &&& 0xFFFF)
  | .twnRkDpRx | .twnRkDpRxHdr | .twnRkDpTx | .twnRkDpTxHdr | .rfeVidRtp | .rfeVidSrcIp | .rfeVidDstIp | .rfeVidUdp | .rfeVidSsrc | .rfeVidDstMac => both
  | r => s.onRf b fun f => { f with cfg := f.cfg.codeWrite s.now r i j v }

/-- A write to a register (R3); `v` is the whole register. -/
def State.regWrite (s : State) (who : Requester) (n : Node) (r : Reg) (i j : Nat) (v : Word64) (frame : Option TenantId := none) : State :=
  let v32 : Word32 := v.truncate 32
  let s := s.preRead n r
  if !writeTaken who r then s
  else match r with
  | .belPeriodNext => s.belWrite n fun r => (r.w32 .belPeriodNext (v32 &&& 0x0FFFFFFF)).setRegBit .belStatus 9 true
  | .belFracNext => s.belWrite n fun r => (r.w32 .belFracNext v32).setRegBit .belStatus 9 true
  | .belSrcCtl => s.srcCtlWrite n v32
  | .belAlign => s.belWrite n fun r => r.w64 .belAlign v
  | .belPtp => s.belPtpWrite n v32
  | .cslCtl => s.cslCtlWrite n v32
  | .cslFmt => s.cslFmtWrite n v32
  | .cslDiv => s.cslDivWrite n v32
  | .cslRts => s.cslRtsWrite n v32
  | .cslTxdata => s.txdataWrite n v32
  | .curCtl => s.curCtlWrite n v32
  | .curDiv => if 768 ≤ fld v 19 0 then s.onSpace n fun c => c.w32 .curDiv (v32 &&& 0xFFFFF) else s
  | r => match n with
    | .sled sl => s.sledWrite who sl r i j v frame
    | .rf b => s.rackWrite b r i j v

/-! ### Accesses (R5 to R10, R14 to R16) -/

/-- The register with a word at an offset of a node. -/
def cfgAt (n : Node) (off : Nat) : Option RegHit :=
  match n with
  | .sled _ => regAt false off
  | .rf _ => regAt true off

/-- The shadow a requester holds of the pair at an offset. -/
def CfgSpace.shadow (c : CfgSpace) (who : Requester) (pair : Nat) : Option Word32 :=
  (c.shadows.find? fun e => decide (e.1 = who ∧ e.2.1 = pair)).map (·.2.2)
/-- Drop that shadow. -/
def CfgSpace.dropShadow (c : CfgSpace) (who : Requester) (pair : Nat) : CfgSpace :=
  { c with shadows := c.shadows.filter fun e => !decide (e.1 = who ∧ e.2.1 = pair) }
/-- The held low write of the pair at an offset. -/
def CfgSpace.heldAt (c : CfgSpace) (pair : Nat) : Option (Requester × Word32) := (c.held.find? fun e => decide (e.1 = pair)).map (·.2)
/-- Drop that held write. -/
def CfgSpace.dropHeld (c : CfgSpace) (pair : Nat) : CfgSpace := { c with held := c.held.filter fun e => decide (e.1 ≠ pair) }

/-- A 32-bit read (R6, R8). -/
def State.cfgRead32 (s : State) (who : Requester) (n : Node) (off : Nat) : State × Word32 :=
  match cfgAt n off with
  | none => (s, 0)
  | some h =>
    if !(regInfo h.reg).wide then
      let p := s.regRead n h.reg h.i h.j
      (p.1, p.2.truncate 32)
    else if h.high then
      match (s.space n).shadow who (off - 4) with
      | some v => (s.onSpace n fun c => c.dropShadow who (off - 4), v)
      | none =>
        let p := s.regRead n h.reg h.i h.j
        (p.1, (p.2 >>> 32).truncate 32)
    else
      let p := s.regRead n h.reg h.i h.j
      let latch := fun (c : CfgSpace) =>
        let c := c.dropShadow who off
        { c with shadows := c.shadows ++ [(who, off, (p.2 >>> 32).truncate 32)] }
      (p.1.onSpace n latch, p.2.truncate 32)

/-- A 32-bit write (R3, R6, R9). -/
def State.cfgWrite32 (s : State) (who : Requester) (n : Node) (off : Nat) (v : Word32) (frame : Option TenantId := none) : State :=
  match cfgAt n off with
  | none => s
  | some h =>
    if !(regInfo h.reg).wide then s.regWrite who n h.reg h.i h.j (v.zeroExtend 64) frame
    else if !writeTaken who h.reg then s
    else if h.high then
      let low : Word32 := match (s.space n).heldAt (off - 4) with
        | some (w, l) => if w = who then l else (s.live n h.reg h.i h.j).truncate 32
        | none => (s.live n h.reg h.i h.j).truncate 32
      (s.onSpace n fun c => c.dropHeld (off - 4)).regWrite who n h.reg h.i h.j (v ++ low) frame
    else s.onSpace n fun c => { c.dropHeld off with held := (c.dropHeld off).held ++ [(off, who, v)] }

/-- A 64-bit read: a pair at once (R7), else the two words it covers, the lower first (log 65). -/
def State.cfgRead64 (s : State) (who : Requester) (n : Node) (off : Nat) : State × Word64 :=
  match cfgAt n off with
  | some h =>
    if (regInfo h.reg).wide then s.regRead n h.reg h.i h.j
    else
      let a := s.cfgRead32 who n off
      let b := a.1.cfgRead32 who n (off + 4)
      (b.1, b.2 ++ a.2)
  | none =>
    let b := s.cfgRead32 who n (off + 4)
    (b.1, b.2 ++ (0 : Word32))

/-- A single 64-bit store to a pair writes both halves and discards a held low write, whichever requester made it (R7, R16). -/
def State.pairStore (s : State) (who : Requester) (n : Node) (r : Reg) (i j : Nat) (v : Word64) (frame : Option TenantId := none) : State :=
  if writeTaken who r then (s.onSpace n fun c => c.dropHeld (regOff r i j)).regWrite who n r i j v frame else s

/-- A 64-bit write: a pair at once, which discards a held low write (R7, R16), else the two words it covers, the lower first (log 65). -/
def State.cfgWrite64 (s : State) (who : Requester) (n : Node) (off : Nat) (v : Word64) (frame : Option TenantId := none) : State :=
  let two := (s.cfgWrite32 who n off (v.truncate 32) frame).cfgWrite32 who n (off + 4) ((v >>> 32).truncate 32) frame
  match cfgAt n off with
  | some h =>
    if (regInfo h.reg).wide then s.pairStore who n h.reg h.i h.j v frame else two
  | none => two

/-- The width and alignment config space takes (R5). -/
def cfgFits (off width : Nat) : Bool := decide ((width = 4 ∨ width = 8) ∧ off % width = 0)

/-- A read of `width` bytes, and what it returns. -/
def State.cfgLoad (s : State) (who : Requester) (n : Node) (off width : Nat) : State × Reply :=
  if !cfgFits off width then (s, .align)
  else if width = 8 then
    let p := s.cfgRead64 who n off
    (p.1, .val p.2)
  else
    let p := s.cfgRead32 who n off
    (p.1, .val (p.2.zeroExtend 64))

/-- A write of `width` bytes, and what it returns. -/
def State.cfgStore (s : State) (who : Requester) (n : Node) (off width : Nat) (v : Word64) (frame : Option TenantId := none) : State × Reply :=
  if !cfgFits off width then (s, .align)
  else (if width = 8 then s.cfgWrite64 who n off v frame else s.cfgWrite32 who n off (v.truncate 32) frame, .none)

/-- The reply of an access is kept for its requester. -/
def State.answer (p : State × Reply) : State := { p.1 with reply := p.2 }

/-- CFG_LOW_WORD_READ (R8). -/
def execCfgLowWordRead (who : Requester) (n : Node) (off : CfgOff) (s : State) : Host.Outcome State Fault Refusal :=
  .next (State.answer (s.cfgLoad who n off.toNat 4))
/-- CFG_HIGH_WORD_READ (R8, R15). -/
def execCfgHighWordRead (who : Requester) (n : Node) (off : CfgOff) (s : State) : Host.Outcome State Fault Refusal :=
  .next (State.answer (s.cfgLoad who n off.toNat 4))
/-- CFG_LOW_WORD_WRITE (R9, R16). -/
def execCfgLowWordWrite (who : Requester) (n : Node) (off : CfgOff) (v : Word32) (s : State) : Host.Outcome State Fault Refusal :=
  .next (State.answer (s.cfgStore who n off.toNat 4 (v.zeroExtend 64)))
/-- CFG_HIGH_WORD_WRITE (R9). -/
def execCfgHighWordWrite (who : Requester) (n : Node) (off : CfgOff) (v : Word32) (s : State) : Host.Outcome State Fault Refusal :=
  .next (State.answer (s.cfgStore who n off.toNat 4 (v.zeroExtend 64)))
/-- CFG_PAIR_ACCESS_64: a read, or a write of a value (R7, R16). -/
def execCfgPairAccess64 (who : Requester) (n : Node) (off : CfgOff) (v : Option Word64) (s : State) : Host.Outcome State Fault Refusal :=
  .next (State.answer (match v with | none => s.cfgLoad who n off.toNat 8 | some v => s.cfgStore who n off.toNat 8 v))
/-- W1C_WRITE (R14). -/
def execW1cWrite (who : Requester) (n : Node) (off : CfgOff) (v : Word32) (s : State) : Host.Outcome State Fault Refusal :=
  .next (State.answer (s.cfgStore who n off.toNat 4 (v.zeroExtend 64)))
/-- REGISTER_WRITE (R3, R5): `width` is in bytes. -/
def execRegisterWrite (who : Requester) (n : Node) (off : CfgOff) (width : Nat) (v : Word64) (s : State) : Host.Outcome State Fault Refusal :=
  .next (State.answer (s.cfgStore who n off.toNat width v))
/-- UNASSIGNED_OFFSET_ACCESS: a 32-bit read, or a write of a value (R6). -/
def execUnassignedOffsetAccess (who : Requester) (n : Node) (off : CfgOff) (v : Option Word32) (s : State) : Host.Outcome State Fault Refusal :=
  .next (State.answer (match v with | none => s.cfgLoad who n off.toNat 4 | some v => s.cfgStore who n off.toNat 4 (v.zeroExtend 64)))

/-! ### Rows that write a whole pair: they are 64-bit stores of it (R7, R16) -/

/-- TNT_FLOG_BASE_WRITE (R92). -/
def execTntFlogBaseWrite (who : Requester) (sl : SledId) (t : TenantId) (v : Word64) (s : State) : Host.Outcome State Fault Refusal :=
  .next (s.pairStore who (.sled sl) .tntFlogBase t 0 v)
/-- BEL_ALIGN_WRITE (R52, R65). -/
def execBelAlignWrite (who : Requester) (n : Node) (v : Word64) (s : State) : Host.Outcome State Fault Refusal :=
  .next (s.pairStore who n .belAlign 0 0 v)
/-- TWN_RANGE_WRITE (R407, Table 12.8). -/
def execTwnRangeWrite (who : Requester) (sl : SledId) (i : Fin 256) (v : Word64) (s : State) : Host.Outcome State Fault Refusal :=
  .next (s.pairStore who (.sled sl) .twnRange i 0 v)
/-- REG_ENTRY_WRITE (R200). -/
def execRegEntryWrite (who : Requester) (sl : SledId) (i : Fin 1024) (v : Word64) (s : State) : Host.Outcome State Fault Refusal :=
  .next (s.pairStore who (.sled sl) .regEntry i 0 v)

/-! ### The reset of a block (R4, R16) -/

/-- The window of a block (Table 0.3): its base and the next one's. -/
def blockWindow : Block → Nat × Nat
  | .ident => (0, 0x100000)
  | .bell => (0x100000, 0x200000)
  | .tenants => (0x200000, 0x300000)
  | .scheduler => (0x300000, 0x400000)
  | .memory => (0x400000, 0x500000)
  | .porter => (0x500000, 0x1000000)
  | .te => (0x1000000, 0x1800000)
  | .rfe => (0x1800000, 0x2000000)
  | .depots => (0x2000000, 0x2800000)
  | .twin => (0x2800000, 0x3000000)
  | .power => (0x3000000, 0x3100000)
  | .courier => (0x3100000, 0x3200000)
  | .fuses => (0x3200000, 0x4000000)

/-- An offset of a block's window. -/
def blockHolds (b : Block) (off : Nat) : Bool := decide ((blockWindow b).1 ≤ off ∧ off < (blockWindow b).2)

/-- The word at an offset has no reset value of its own: its table gives "fuse", "—" or, for DEP_EN, "set at start-up" (R4), or it is of the manifest, which stands until sled
reset (R488). It keeps what start-up or the last sample put there (DESIGN CHOICE, log 66). -/
def keepsWord (n : Node) (off : Nat) : Bool :=
  match cfgAt n off with
  | some h => match h.reg with
    | .stepping | .sled | .manifest | .depEn | .fusRow | .fusBoot | .pwrCoef | .pwrStatic | .pwrVin | .pwrV12 | .pwrVpp | .pwrVinMin | .pwrClk | .pwrTj => true
    | _ => false
  | none => false

/-- Reset values in a block's registers; no held write and no shadow of the block stays (R4, R16). -/
def CfgSpace.resetBlock (c : CfgSpace) (n : Node) (b : Block) : CfgSpace :=
  { words := c.words.filter fun e => !blockHolds b e.1 || keepsWord n e.1
    shadows := c.shadows.filter fun e => !blockHolds b e.2.1
    held := c.held.filter fun e => !blockHolds b e.1
    raised := c.raised.filter fun e => !blockHolds b e.1 }

/-- Items of some entry kinds that have not ended are lost. -/
def Sled.dropKinds (d : Sled) (ks : List Byte) : Sled :=
  let gone := fun (id : Nat) => match d.item id with | some i => ks.contains i.kind && decide (i.st ≠ .finished) | none => false
  { d with items := d.items.filter fun i => !(ks.contains i.kind && decide (i.st ≠ .finished)), carried := d.carried.filter fun id => !gone id }

/-- A block's reset also clears what the block holds that its RO fields show, so that these read their reset values too; work that stood in it is lost without a completion (R4;
DESIGN CHOICE, log 66). CLOSED stays, for closure never reverses (R480). -/
def Sled.resetUnits (d : Sled) (b : Block) : Sled :=
  match b with
  | .ident => d
  | .bell => { d with bell := { (default : Bell) with leaseUntil := d.bell.leaseUntil } }
  | .tenants => { d with tenants := [], queues := [], items := [], carried := [], counts := [], fracs := [] }
  | .scheduler => allCores.foldl (fun (d : Sled) c => d.onCore c fun k => { k with entry := none, mask := none, sched := none, reserved := none }) { d with slices := [] }
  | .memory => { d with tlb := [], convs := [], scrub := 0 }
  | .porter => { d.dropKinds [6] with porters := [] }
  | .te => { d.dropKinds [2, 3] with engines := [] }
  | .rfe => { d.dropKinds [4] with rfes := [], compositor := {} }
  | .depots => { d.dropKinds [5] with depots := [], launches := [], footpath := [] }
  | .twin => { d with twins := [], tether := {}, undo := [], cfgMismatch := false, cfgWaits := false, bell := { d.bell with leaseUntil := none } }
  | .power => { d with power := { (default : Power) with coreMv := d.power.coreMv, lastSample := d.power.lastSample } }
  | .courier => { d with serial := {} }
  | .fuses => { d.w32 .fusDebug (if d.debugClosed then 2 else 0) with fuse := none }

/-- The same on a Rack Factor. -/
def RackFactor.resetUnits (r : RackFactor) (b : Block) : RackFactor :=
  match b with
  | .bell => { r with bell := {} }
  | .courier => { r with serial := {} }
  | _ => r

/-- BLOCK_RESET: the registers, and what stands behind them. -/
def State.blockReset (s : State) (n : Node) (b : Block) : State :=
  let s := s.onSpace n fun c => c.resetBlock n b
  match n with
  | .sled sl => s.onSled sl fun _ d => d.resetUnits b
  | .rf k => s.onRf k fun r => r.resetUnits b

def execBlockReset (n : Node) (b : Block) (s : State) : Host.Outcome State Fault Refusal := .next (s.blockReset n b)

end Sys2Proof.Machine
end

