-- ==== Sys2Proof/Machine/Operands.lean ====
section
/-! DEFINITION. The Xehal instruction word: its fields, the table of instructions with the register sets, types, modifiers and IMM each takes, the words that are
ILLEGAL (R106, R107, R141 to R182), and the registers an instruction reads and writes. -/
namespace Sys2Proof.Machine

/-! ### Fields (Table 4.2) -/

/-- An instruction word. -/
abbrev IWord := BitVec 128

def iOp (i : IWord) : Nat := fld i 7 0
def iFn (i : IWord) : Nat := fld i 15 8
def iD (i : IWord) : Nat := fld i 21 16
def iA (i : IWord) : Nat := fld i 27 22
def iB (i : IWord) : Nat := fld i 33 28
def iC (i : IWord) : Nat := fld i 39 34
def iP (i : IWord) : Nat := fld i 43 40
def iPn (i : IWord) : Bool := bit i 44
def iT (i : IWord) : Nat := fld i 47 45
def iM (i : IWord) : Nat := fld i 63 48
def iImm (i : IWord) : Word64 := i.extractLsb' 64 64
/-- RM, SR, SAT and U (Table 4.4). -/
def iRm (i : IWord) : Nat := fld i 49 48
def iSr (i : IWord) : Bool := bit i 50
def iSat (i : IWord) : Bool := bit i 51
def iCh (i : IWord) : Nat := fld i 53 52
def iU (i : IWord) : Bool := bit i 54

/-- Opcodes in which FN[7] is the immediate bit I (R142). -/
def iGroup (op : Nat) : Bool := decide (op = 1 ∨ op = 2 ∨ op = 0x10 ∨ op = 0x11 ∨ op = 0x12)
/-- The immediate bit. -/
def iI (i : IWord) : Bool := iGroup (iOp i) && bit i 15
/-- The function. -/
def iFun (i : IWord) : Nat := if iGroup (iOp i) then iFn i % 128 else iFn i

/-- Bits of an element type (Table 4.3). -/
def tWidth (t : Nat) : Nat := if t = 0 then 64 else if t = 1 ∨ t = 3 then 32 else if t = 4 ∨ t = 5 then 16 else 8
/-- The format of a floating-point type. -/
def tFmt (t : Nat) : Fmt := if t = 4 then .fp16 else if t = 5 then .bf16 else if t = 6 then .e4m3 else if t = 7 then .e5m2 else .fp32
/-- Elements of a type in a wide register. -/
def tCount (t : Nat) : Nat := 2048 / tWidth t

/-! ### The instructions -/

/-- The instructions of Tables 5.3 to 5.16. -/
inductive Mn where
  | add | sub | mul | mulh | div | rem | and | or | xor | shl | shr | sra | min | max
  | seq | slt | sle | clz | popc | fadd | fsub | fmul | ffma | fdiv | fsqrt | fmin | fmax | fneg
  | fabs | feq | flt | fle | fcvt | movi | wbcast | wins | wext | pmov | pset | wmovi | ceq | cne
  | clt | cle | pand | por | pxor | pandn | pnot | br | brr | call | callr | beq | bne | blt
  | bge | bany | ball | ld | st | ldx | stx | pref | amoswap | amoadd | amoand | amoor | amoxor | amomin
  | amomax | amocas | cvt | wperm | wrot | wsel | wredadd | wredmin | wredmax | wld | wst | wldx | wstx | mma
  | mmax | mmaz | tzero | tld | tst | trd | twr | fence | ifence | cflush | cinval | waitwork | ready | yield
  | bellwait | tesubmit | teresume | probesub | deplaunch | nop | crrd | crwr | trap | brk | tret
deriving DecidableEq, Repr

/-- The register sets (Table 4.1). -/
inductive RSet where
  | none | s | w | p | t
deriving DecidableEq, Repr

/-- What IMM may hold: zero; anything; only the bits of a mask; the I rule of R142, with or without a B operand; an element index (R147); no bit above the element
(R182); a conversion's types (R157); a control-register index (R131). -/
inductive ImmKind where
  | zero | any
  | mask (m : Nat)
  | iform | noB | elem | fits | fcvt | cvt | cr
deriving DecidableEq, Repr

/-- How a predicate governs the instruction: not at all (R147, R148), by its bit 0 (R110), or by lane or row (R109, R160). -/
inductive PredKind where
  | none | scalar | lanes
deriving DecidableEq, Repr

/-- One defined OP and FN: the sets that D, A, B and C name, the types as a bit mask, the modifier bits of M accepted, IMM, the predicate, and kernel-only. -/
structure ISpec where
  op : Nat
  fn : Nat
  mn : Mn
  d : RSet
  a : RSet
  b : RSet
  c : RSet
  types : Nat
  mods : Nat
  imm : ImmKind
  pred : PredKind
  kernel : Bool
deriving DecidableEq, Repr

/-- OP 0x01 (Table 5.3). -/
def specInt : List ISpec := [
  ⟨0x01, 0x00, .add, .s, .s, .s, .none, 0x07, 0x48, .iform, .scalar, false⟩,
  ⟨0x01, 0x01, .sub, .s, .s, .s, .none, 0x07, 0x48, .iform, .scalar, false⟩,
  ⟨0x01, 0x02, .mul, .s, .s, .s, .none, 0x07, 0x48, .iform, .scalar, false⟩,
  ⟨0x01, 0x03, .mulh, .s, .s, .s, .none, 0x07, 0x40, .iform, .scalar, false⟩,
  ⟨0x01, 0x04, .div, .s, .s, .s, .none, 0x07, 0x40, .iform, .scalar, false⟩,
  ⟨0x01, 0x05, .rem, .s, .s, .s, .none, 0x07, 0x40, .iform, .scalar, false⟩,
  ⟨0x01, 0x06, .and, .s, .s, .s, .none, 0x07, 0x40, .iform, .scalar, false⟩,
  ⟨0x01, 0x07, .or, .s, .s, .s, .none, 0x07, 0x40, .iform, .scalar, false⟩,
  ⟨0x01, 0x08, .xor, .s, .s, .s, .none, 0x07, 0x40, .iform, .scalar, false⟩,
  ⟨0x01, 0x09, .shl, .s, .s, .s, .none, 0x07, 0x40, .iform, .scalar, false⟩,
  ⟨0x01, 0x0A, .shr, .s, .s, .s, .none, 0x07, 0x40, .iform, .scalar, false⟩,
  ⟨0x01, 0x0B, .sra, .s, .s, .s, .none, 0x07, 0x40, .iform, .scalar, false⟩,
  ⟨0x01, 0x0C, .min, .s, .s, .s, .none, 0x07, 0x40, .iform, .scalar, false⟩,
  ⟨0x01, 0x0D, .max, .s, .s, .s, .none, 0x07, 0x40, .iform, .scalar, false⟩,
  ⟨0x01, 0x0E, .seq, .s, .s, .s, .none, 0x07, 0x40, .iform, .scalar, false⟩,
  ⟨0x01, 0x0F, .slt, .s, .s, .s, .none, 0x07, 0x40, .iform, .scalar, false⟩,
  ⟨0x01, 0x10, .sle, .s, .s, .s, .none, 0x07, 0x40, .iform, .scalar, false⟩,
  ⟨0x01, 0x11, .clz, .s, .s, .none, .none, 0x07, 0x40, .noB, .scalar, false⟩,
  ⟨0x01, 0x12, .popc, .s, .s, .none, .none, 0x07, 0x40, .noB, .scalar, false⟩]

/-- OP 0x10 (Table 5.3, wide forms). -/
def specWideInt : List ISpec := [
  ⟨0x10, 0x00, .add, .w, .w, .w, .none, 0x07, 0x48, .iform, .lanes, false⟩,
  ⟨0x10, 0x01, .sub, .w, .w, .w, .none, 0x07, 0x48, .iform, .lanes, false⟩,
  ⟨0x10, 0x02, .mul, .w, .w, .w, .none, 0x07, 0x48, .iform, .lanes, false⟩,
  ⟨0x10, 0x03, .mulh, .w, .w, .w, .none, 0x07, 0x40, .iform, .lanes, false⟩,
  ⟨0x10, 0x04, .div, .w, .w, .w, .none, 0x07, 0x40, .iform, .lanes, false⟩,
  ⟨0x10, 0x05, .rem, .w, .w, .w, .none, 0x07, 0x40, .iform, .lanes, false⟩,
  ⟨0x10, 0x06, .and, .w, .w, .w, .none, 0x07, 0x40, .iform, .lanes, false⟩,
  ⟨0x10, 0x07, .or, .w, .w, .w, .none, 0x07, 0x40, .iform, .lanes, false⟩,
  ⟨0x10, 0x08, .xor, .w, .w, .w, .none, 0x07, 0x40, .iform, .lanes, false⟩,
  ⟨0x10, 0x09, .shl, .w, .w, .w, .none, 0x07, 0x40, .iform, .lanes, false⟩,
  ⟨0x10, 0x0A, .shr, .w, .w, .w, .none, 0x07, 0x40, .iform, .lanes, false⟩,
  ⟨0x10, 0x0B, .sra, .w, .w, .w, .none, 0x07, 0x40, .iform, .lanes, false⟩,
  ⟨0x10, 0x0C, .min, .w, .w, .w, .none, 0x07, 0x40, .iform, .lanes, false⟩,
  ⟨0x10, 0x0D, .max, .w, .w, .w, .none, 0x07, 0x40, .iform, .lanes, false⟩,
  ⟨0x10, 0x11, .clz, .w, .w, .none, .none, 0x07, 0x40, .noB, .lanes, false⟩,
  ⟨0x10, 0x12, .popc, .w, .w, .none, .none, 0x07, 0x40, .noB, .lanes, false⟩]

/-- OP 0x02 (Table 5.4). -/
def specFp : List ISpec := [
  ⟨0x02, 0x00, .fadd, .s, .s, .s, .none, 0x38, 0x07, .iform, .scalar, false⟩,
  ⟨0x02, 0x01, .fsub, .s, .s, .s, .none, 0x38, 0x07, .iform, .scalar, false⟩,
  ⟨0x02, 0x02, .fmul, .s, .s, .s, .none, 0x38, 0x07, .iform, .scalar, false⟩,
  ⟨0x02, 0x03, .ffma, .s, .s, .s, .s, 0x38, 0x07, .iform, .scalar, false⟩,
  ⟨0x02, 0x04, .fdiv, .s, .s, .s, .none, 0x38, 0x07, .iform, .scalar, false⟩,
  ⟨0x02, 0x05, .fsqrt, .s, .s, .none, .none, 0x38, 0x07, .noB, .scalar, false⟩,
  ⟨0x02, 0x06, .fmin, .s, .s, .s, .none, 0x38, 0x00, .iform, .scalar, false⟩,
  ⟨0x02, 0x07, .fmax, .s, .s, .s, .none, 0x38, 0x00, .iform, .scalar, false⟩,
  ⟨0x02, 0x08, .fneg, .s, .s, .none, .none, 0x38, 0x00, .noB, .scalar, false⟩,
  ⟨0x02, 0x09, .fabs, .s, .s, .none, .none, 0x38, 0x00, .noB, .scalar, false⟩,
  ⟨0x02, 0x0A, .feq, .s, .s, .s, .none, 0x38, 0x00, .iform, .scalar, false⟩,
  ⟨0x02, 0x0B, .flt, .s, .s, .s, .none, 0x38, 0x00, .iform, .scalar, false⟩,
  ⟨0x02, 0x0C, .fle, .s, .s, .s, .none, 0x38, 0x00, .iform, .scalar, false⟩,
  ⟨0x02, 0x0D, .fcvt, .s, .s, .none, .none, 0xFF, 0x4F, .fcvt, .scalar, false⟩]

/-- OP 0x11 (Table 5.4, wide forms). -/
def specWideFp : List ISpec := [
  ⟨0x11, 0x00, .fadd, .w, .w, .w, .none, 0x38, 0x07, .iform, .lanes, false⟩,
  ⟨0x11, 0x01, .fsub, .w, .w, .w, .none, 0x38, 0x07, .iform, .lanes, false⟩,
  ⟨0x11, 0x02, .fmul, .w, .w, .w, .none, 0x38, 0x07, .iform, .lanes, false⟩,
  ⟨0x11, 0x03, .ffma, .w, .w, .w, .w, 0x38, 0x07, .iform, .lanes, false⟩,
  ⟨0x11, 0x04, .fdiv, .w, .w, .w, .none, 0x38, 0x07, .iform, .lanes, false⟩,
  ⟨0x11, 0x05, .fsqrt, .w, .w, .none, .none, 0x38, 0x07, .noB, .lanes, false⟩,
  ⟨0x11, 0x06, .fmin, .w, .w, .w, .none, 0x38, 0x00, .iform, .lanes, false⟩,
  ⟨0x11, 0x07, .fmax, .w, .w, .w, .none, 0x38, 0x00, .iform, .lanes, false⟩,
  ⟨0x11, 0x08, .fneg, .w, .w, .none, .none, 0x38, 0x00, .noB, .lanes, false⟩,
  ⟨0x11, 0x09, .fabs, .w, .w, .none, .none, 0x38, 0x00, .noB, .lanes, false⟩]

/-- OP 0x03 (Table 5.5). -/
def specMove : List ISpec := [
  ⟨0x03, 0x00, .movi, .s, .none, .none, .none, 0x01, 0x00, .any, .scalar, false⟩,
  ⟨0x03, 0x01, .wbcast, .w, .s, .none, .none, 0xFF, 0x00, .zero, .lanes, false⟩,
  ⟨0x03, 0x02, .wins, .w, .s, .none, .none, 0xFF, 0x00, .elem, .none, false⟩,
  ⟨0x03, 0x03, .wext, .s, .w, .none, .none, 0xFF, 0x40, .elem, .none, false⟩,
  ⟨0x03, 0x04, .pmov, .s, .p, .none, .none, 0x01, 0x00, .zero, .scalar, false⟩,
  ⟨0x03, 0x05, .pset, .p, .s, .none, .none, 0x01, 0x00, .zero, .scalar, false⟩,
  ⟨0x03, 0x06, .wmovi, .w, .none, .none, .none, 0xFF, 0x00, .fits, .lanes, false⟩]

/-- OP 0x12 (Table 5.6). -/
def specCmp : List ISpec := [
  ⟨0x12, 0x00, .ceq, .p, .w, .w, .none, 0x0B, 0x00, .iform, .lanes, false⟩,
  ⟨0x12, 0x01, .cne, .p, .w, .w, .none, 0x0B, 0x00, .iform, .lanes, false⟩,
  ⟨0x12, 0x02, .clt, .p, .w, .w, .none, 0x0B, 0x40, .iform, .lanes, false⟩,
  ⟨0x12, 0x03, .cle, .p, .w, .w, .none, 0x0B, 0x40, .iform, .lanes, false⟩,
  ⟨0x12, 0x10, .pand, .p, .p, .p, .none, 0x01, 0x00, .iform, .none, false⟩,
  ⟨0x12, 0x11, .por, .p, .p, .p, .none, 0x01, 0x00, .iform, .none, false⟩,
  ⟨0x12, 0x12, .pxor, .p, .p, .p, .none, 0x01, 0x00, .iform, .none, false⟩,
  ⟨0x12, 0x13, .pandn, .p, .p, .p, .none, 0x01, 0x00, .iform, .none, false⟩,
  ⟨0x12, 0x14, .pnot, .p, .p, .none, .none, 0x01, 0x00, .noB, .none, false⟩]

/-- OP 0x04 (Table 5.7). -/
def specBranch : List ISpec := [
  ⟨0x04, 0x00, .br, .none, .none, .none, .none, 0x01, 0x00, .any, .scalar, false⟩,
  ⟨0x04, 0x01, .brr, .none, .s, .none, .none, 0x01, 0x00, .any, .scalar, false⟩,
  ⟨0x04, 0x02, .call, .s, .none, .none, .none, 0x01, 0x00, .any, .scalar, false⟩,
  ⟨0x04, 0x03, .callr, .s, .s, .none, .none, 0x01, 0x00, .any, .scalar, false⟩,
  ⟨0x04, 0x08, .beq, .none, .s, .s, .none, 0x01, 0x00, .any, .scalar, false⟩,
  ⟨0x04, 0x09, .bne, .none, .s, .s, .none, 0x01, 0x00, .any, .scalar, false⟩,
  ⟨0x04, 0x0A, .blt, .none, .s, .s, .none, 0x01, 0x40, .any, .scalar, false⟩,
  ⟨0x04, 0x0B, .bge, .none, .s, .s, .none, 0x01, 0x40, .any, .scalar, false⟩,
  ⟨0x04, 0x0C, .bany, .none, .p, .none, .none, 0x01, 0x00, .any, .scalar, false⟩,
  ⟨0x04, 0x0D, .ball, .none, .p, .none, .none, 0x01, 0x00, .any, .scalar, false⟩]

/-- OP 0x08 (Table 5.8). -/
def specMem : List ISpec := [
  ⟨0x08, 0x00, .ld, .s, .s, .none, .none, 0xFF, 0x70, .any, .scalar, false⟩,
  ⟨0x08, 0x01, .st, .none, .s, .s, .none, 0xFF, 0x70, .any, .scalar, false⟩,
  ⟨0x08, 0x02, .ldx, .s, .s, .s, .none, 0xFF, 0x70, .any, .scalar, false⟩,
  ⟨0x08, 0x03, .stx, .none, .s, .s, .s, 0xFF, 0x70, .any, .scalar, false⟩,
  ⟨0x08, 0x04, .pref, .none, .s, .none, .none, 0xFF, 0x30, .any, .scalar, false⟩]

/-- OP 0x09 (Table 5.9). -/
def specAmo : List ISpec := [
  ⟨0x09, 0x00, .amoswap, .s, .s, .s, .none, 0x03, 0x40, .any, .scalar, false⟩,
  ⟨0x09, 0x01, .amoadd, .s, .s, .s, .none, 0x03, 0x40, .any, .scalar, false⟩,
  ⟨0x09, 0x02, .amoand, .s, .s, .s, .none, 0x03, 0x40, .any, .scalar, false⟩,
  ⟨0x09, 0x03, .amoor, .s, .s, .s, .none, 0x03, 0x40, .any, .scalar, false⟩,
  ⟨0x09, 0x04, .amoxor, .s, .s, .s, .none, 0x03, 0x40, .any, .scalar, false⟩,
  ⟨0x09, 0x05, .amomin, .s, .s, .s, .none, 0x03, 0x40, .any, .scalar, false⟩,
  ⟨0x09, 0x06, .amomax, .s, .s, .s, .none, 0x03, 0x40, .any, .scalar, false⟩,
  ⟨0x09, 0x07, .amocas, .s, .s, .s, .s, 0x03, 0x40, .any, .scalar, false⟩]

/-- OP 0x13 (Table 5.11). -/
def specConv : List ISpec := [
  ⟨0x13, 0x00, .cvt, .w, .w, .none, .none, 0xFF, 0x4F, .cvt, .lanes, false⟩,
  ⟨0x13, 0x01, .wperm, .w, .w, .w, .none, 0x02, 0x00, .zero, .lanes, false⟩,
  ⟨0x13, 0x02, .wrot, .w, .w, .none, .none, 0x02, 0x00, .mask 0x3F, .lanes, false⟩,
  ⟨0x13, 0x03, .wsel, .w, .w, .w, .none, 0x02, 0x00, .zero, .lanes, false⟩,
  ⟨0x13, 0x04, .wredadd, .s, .w, .none, .none, 0x3F, 0x4F, .zero, .lanes, false⟩,
  ⟨0x13, 0x05, .wredmin, .s, .w, .none, .none, 0x3F, 0x40, .zero, .lanes, false⟩,
  ⟨0x13, 0x06, .wredmax, .s, .w, .none, .none, 0x3F, 0x40, .zero, .lanes, false⟩]

/-- OP 0x14 (Table 5.10). -/
def specWideMem : List ISpec := [
  ⟨0x14, 0x00, .wld, .w, .s, .none, .none, 0xFF, 0x30, .any, .lanes, false⟩,
  ⟨0x14, 0x01, .wst, .none, .s, .w, .none, 0xFF, 0x30, .any, .lanes, false⟩,
  ⟨0x14, 0x02, .wldx, .w, .s, .w, .none, 0x0B, 0x30, .any, .lanes, false⟩,
  ⟨0x14, 0x03, .wstx, .none, .s, .w, .w, 0x0B, 0x30, .any, .lanes, false⟩]

/-- OP 0x18 (Table 5.12). -/
def specMatrix : List ISpec := [
  ⟨0x18, 0x00, .mma, .t, .w, .w, .none, 0xF0, 0x07, .zero, .lanes, false⟩,
  ⟨0x18, 0x01, .mmax, .t, .w, .w, .none, 0xC0, 0x07, .zero, .lanes, false⟩,
  ⟨0x18, 0x02, .mmaz, .t, .w, .w, .none, 0xF0, 0x07, .zero, .lanes, false⟩,
  ⟨0x18, 0x08, .tzero, .t, .none, .none, .none, 0x08, 0x00, .zero, .lanes, false⟩,
  ⟨0x18, 0x09, .tld, .t, .s, .none, .none, 0x08, 0x30, .any, .lanes, false⟩,
  ⟨0x18, 0x0A, .tst, .none, .s, .t, .none, 0x08, 0x30, .any, .lanes, false⟩,
  ⟨0x18, 0x0B, .trd, .w, .t, .none, .none, 0x08, 0x00, .mask 3, .lanes, false⟩,
  ⟨0x18, 0x0C, .twr, .t, .w, .none, .none, 0x08, 0x00, .mask 3, .lanes, false⟩]

/-- OP 0x20 (R161). -/
def specCache : List ISpec := [
  ⟨0x20, 0x00, .fence, .none, .none, .none, .none, 0x01, 0x00, .zero, .scalar, false⟩,
  ⟨0x20, 0x01, .ifence, .none, .none, .none, .none, 0x01, 0x00, .zero, .scalar, false⟩,
  ⟨0x20, 0x02, .cflush, .none, .s, .s, .none, 0x01, 0x00, .zero, .scalar, false⟩,
  ⟨0x20, 0x03, .cinval, .none, .s, .s, .none, 0x01, 0x00, .zero, .scalar, false⟩]

/-- OP 0x28 (Table 5.14). -/
def specSched : List ISpec := [
  ⟨0x28, 0x00, .waitwork, .none, .none, .none, .none, 0x01, 0x00, .mask 0x1FF, .scalar, true⟩,
  ⟨0x28, 0x01, .ready, .s, .s, .none, .none, 0x01, 0x00, .zero, .scalar, true⟩,
  ⟨0x28, 0x02, .yield, .none, .none, .none, .none, 0x01, 0x00, .zero, .scalar, false⟩,
  ⟨0x28, 0x03, .bellwait, .none, .s, .none, .none, 0x01, 0x00, .any, .scalar, false⟩]

/-- OP 0x29 (Table 5.15). -/
def specSubmit : List ISpec := [
  ⟨0x29, 0x00, .tesubmit, .s, .s, .s, .none, 0x01, 0x00, .any, .scalar, false⟩,
  ⟨0x29, 0x01, .teresume, .s, .s, .s, .none, 0x01, 0x00, .any, .scalar, false⟩,
  ⟨0x29, 0x02, .probesub, .s, .s, .s, .none, 0x01, 0x00, .any, .scalar, false⟩,
  ⟨0x29, 0x03, .deplaunch, .s, .s, .none, .none, 0x01, 0x00, .any, .scalar, false⟩]

/-- OP 0x30 (Table 5.16). -/
def specSystem : List ISpec := [
  ⟨0x30, 0x00, .nop, .none, .none, .none, .none, 0x01, 0x00, .zero, .scalar, false⟩,
  ⟨0x30, 0x01, .crrd, .s, .none, .none, .none, 0x01, 0x00, .cr, .scalar, false⟩,
  ⟨0x30, 0x02, .crwr, .none, .s, .none, .none, 0x01, 0x00, .cr, .scalar, false⟩,
  ⟨0x30, 0x03, .trap, .none, .none, .none, .none, 0x01, 0x00, .any, .scalar, false⟩,
  ⟨0x30, 0x04, .brk, .none, .none, .none, .none, 0x01, 0x00, .any, .scalar, false⟩,
  ⟨0x30, 0x05, .tret, .none, .none, .none, .none, 0x01, 0x00, .zero, .scalar, true⟩]

/-- The functions of a major opcode (Table 5.1). -/
def specsOf (op : Nat) : List ISpec :=
  match op with
  | 0x01 => specInt
  | 0x10 => specWideInt
  | 0x02 => specFp
  | 0x11 => specWideFp
  | 0x03 => specMove
  | 0x12 => specCmp
  | 0x04 => specBranch
  | 0x08 => specMem
  | 0x09 => specAmo
  | 0x13 => specConv
  | 0x14 => specWideMem
  | 0x18 => specMatrix
  | 0x20 => specCache
  | 0x28 => specSched
  | 0x29 => specSubmit
  | 0x30 => specSystem
  | _ => []

/-- The instruction a word names by OP and FN; none for a reserved or undefined pair (R141). -/
def specOf (i : IWord) : Option ISpec := (specsOf (iOp i)).find? fun s => decide (s.fn = iFun i)

/-! ### Words that are ILLEGAL (R107) -/

/-- Registers in a set. -/
def RSet.size : RSet → Nat
  | .none => 1 | .s => 64 | .w => 32 | .p => 16 | .t => 8

/-- The control registers: valid indices, and which are kernel-only (Table 4.9). -/
def crValid (n : Nat) : Bool := decide (n ≤ 7 ∨ (0x10 ≤ n ∧ n ≤ 0x12) ∨ (0x20 ≤ n ∧ n ≤ 0x24))
def crKernel (n : Nat) : Bool := decide (n ≤ 7)
def crReadOnly (n : Nat) : Bool := decide (0x20 ≤ n)

/-- PART fits the types of a conversion (R157). -/
def partOk (src dst part : Nat) : Bool :=
  let ns := tCount src
  let nd := tCount dst
  if ns < nd then decide (part < nd / ns) else if nd < ns then decide (part < ns / nd) else decide (part = 0)

/-- IMM holds what the instruction allows. -/
def immOk (s : ISpec) (i : IWord) : Bool :=
  let v := (iImm i).toNat
  let w := tWidth (iT i)
  match s.imm with
  | .zero => decide (v = 0)
  | .any => true
  | .mask m => decide (v &&& m = v)
  | .iform => if iI i then decide (v < 2 ^ w) else decide (v = 0)
  | .noB => !iI i && decide (v = 0)
  | .elem => decide (v < tCount (iT i))
  | .fits => decide (v < 2 ^ w)
  | .fcvt => !iI i && decide (v < 8 ∧ v ≠ iT i)
  | .cvt => decide (v &&& 0x307 = v ∧ v % 8 ≠ iT i) && partOk (v % 8) (iT i) (v / 256 % 4)
  | .cr => decide (v < 4096) && crValid v && !(decide (s.mn = .crwr) && crReadOnly v)

/-- The modifiers accepted, which for reductions depend on the type (R158). -/
def modsFor (s : ISpec) (t : Nat) : Nat :=
  if s.mn = .wredadd then (if t < 3 then 0x48 else 7) else if s.mn = .wredmin ∨ s.mn = .wredmax then (if t < 3 then 0x40 else 0) else s.mods

/-- A word that does not break R107. -/
def legal (s : ISpec) (i : IWord) : Bool :=
  let field := fun (r : RSet) (n : Nat) => decide (n < r.size)
  field s.d (iD i) && field s.a (iA i) && (if iI i then decide (iB i = 0) else field s.b (iB i)) && field s.c (iC i)
    && decide (s.types / 2 ^ iT i % 2 = 1) && decide (iM i &&& modsFor s (iT i) = iM i) && immOk s i
    && (decide (s.pred ≠ .none) || (decide (iP i = 0) && !iPn i))

/-- The instruction is kernel-only (R105, R131). -/
def needsKernel (s : ISpec) (i : IWord) : Bool := s.kernel || (decide (s.imm = .cr) && crKernel (iImm i).toNat)

/-- The registers it reads: A, B and C, and the old tile of MMA and MMAX (R181). -/
def sources (s : ISpec) (i : IWord) : List (RSet × Nat) :=
  [(s.a, iA i)] ++ (if iI i then [] else [(s.b, iB i)]) ++ [(s.c, iC i)] ++ (if s.mn = .mma ∨ s.mn = .mmax then [(.t, iD i)] else [])

/-! ### Registers of a core -/

/-- The VA kept for a poisoned register (R114). -/
def Core.poison (k : Core) (r : RSet) (n : Nat) : Option Word64 :=
  match r with
  | .s => if n = 63 then none else mget k.poisonS n
  | .w => mget k.poisonW n
  | .t => mget k.poisonT n
  | _ => none

/-- Write a scalar: s63 discards it, and the poison goes (R114). -/
def Core.putS (k : Core) (n : Nat) (v : Word64) : Core :=
  if n = 63 then k else { k with s := mset k.s n v, poisonS := mset k.poisonS n none }
/-- Write a predicate: p0 discards it. -/
def Core.putP (k : Core) (n : Nat) (v : Word64) : Core := if n = 0 then k else { k with p := mset k.p n v }
/-- A wide register. -/
def Core.getW (k : Core) (n : Nat) : BitVec 2048 := mget k.w n
/-- A tile. -/
def Core.getT (k : Core) (n : Nat) : BitVec 8192 := mget k.t n
/-- Write a wide register: WD is set, and a write of the whole register clears its poison. -/
def Core.putW (k : Core) (n : Nat) (v : BitVec 2048) (whole : Bool) : Core :=
  { k with w := mset k.w n v, state := k.state ||| 0x10, poisonW := if whole then mset k.poisonW n none else k.poisonW }
/-- Write a tile: TD is set, and a write of the whole tile clears its poison. -/
def Core.putT (k : Core) (n : Nat) (v : BitVec 8192) (whole : Bool) : Core :=
  { k with t := mset k.t n v, state := k.state ||| 0x20, poisonT := if whole then mset k.poisonT n none else k.poisonT }

/-- The predicate an instruction names, after PN. -/
def Core.pred (k : Core) (i : IWord) : Word64 := if iPn i then ~~~(k.getP (iP i)) else k.getP (iP i)
/-- Element `e` of width `w` is active (R109). -/
def elemOn (p : Word64) (w e : Nat) : Bool := if w = 64 then bit p (2 * e) else bit p (e * w / 32)

/-- Element `e` of width `w` of a register. -/
def elt {n : Nat} (w : Nat) (v : BitVec n) (e : Nat) : Nat := v.toNat / 2 ^ (w * e) % 2 ^ w
/-- The register whose elements of width `w` are given by `f`, `n` of them. -/
def ofElts (bits w n : Nat) (f : Nat → Nat) : BitVec bits := BitVec.ofNat bits ((List.range n).foldr (fun e a => f e % 2 ^ w + 2 ^ w * a) 0)

/-- Write the active elements of a wide register; no write happens when none is active (R109, R139). -/
def Core.putElts (k : Core) (n w : Nat) (on : Nat → Bool) (f : Nat → Nat) : Core :=
  let cnt := 2048 / w
  let old := k.getW n
  let l := List.range cnt
  if l.any on then k.putW n (ofElts 2048 w cnt fun e => if on e then f e else elt w old e) (l.all on) else k

/-- Sticky flags of FPCSR gained (Table 4.11). -/
def Core.flag (k : Core) (f : Nat) : Core := { k with fpcsr := k.fpcsr ||| BitVec.ofNat 64 (f % 32) }
/-- SRCOUNT steps once per executed instruction with SR set (R120). -/
def Core.stepSr (k : Core) (i : IWord) : Core := if iSr i then { k with srcount := k.srcount + 1 } else k
/-- The rounding of element `e` (R108, R120). -/
def Core.rnd (k : Core) (i : IWord) (e : Nat) : Rnd := rndOf (iRm i) (iSr i) k.srseed k.srcount e

/-- A result of width `w` extended to 64 bits (R143). -/
def extend (w : Nat) (signed : Bool) (v : Nat) : Word64 :=
  let v := v % 2 ^ w
  if signed && decide (2 ^ (w - 1) ≤ v) then BitVec.ofNat 64 (v + (2 ^ 64 - 2 ^ w)) else BitVec.ofNat 64 v
/-- The signed value of a `w`-bit number. -/
def sval (w v : Nat) : Int := if 2 ^ (w - 1) ≤ v % 2 ^ w then (v % 2 ^ w : Nat) - (2 ^ w : Nat) else (v % 2 ^ w : Nat)
/-- An integer operand as a value. -/
def ival (w : Nat) (uns : Bool) (v : Nat) : Int := if uns then (v % 2 ^ w : Nat) else sval w v
/-- A value wrapped to `w` bits. -/
def wrapInt (w : Nat) (v : Int) : Nat := (v % (2 ^ w : Int)).toNat
/-- A value clamped to the limits of a type (R118). -/
def clampInt (w : Nat) (uns : Bool) (v : Int) : Nat := wrapInt w (if v < intMin w uns then intMin w uns else if intMax w uns < v then intMax w uns else v)

/-- Operand B of a scalar instruction: a register, or IMM (R142). -/
def Core.opB (k : Core) (i : IWord) : Nat := if iI i then (iImm i).toNat else (k.getS (iB i)).toNat
/-- Element `e` of operand B of a wide instruction: of a register, or IMM broadcast (R142). -/
def Core.eltB (k : Core) (i : IWord) (w e : Nat) : Nat := if iI i then (iImm i).toNat % 2 ^ w else elt w (k.getW (iB i)) e

end Sys2Proof.Machine
end

