-- ==== Sys2Proof/Machine/Issue.lean ====
section
/-! DEFINITION. The issue of an instruction on a Xehal core: fetch (R106, R124, R150), the checks before issue in the order of R127, the scoreboard (R111, R112),
predication of scalar forms (R110), and trap entry (R125, R133) as one shared operation. -/
namespace Sys2Proof.Machine

/-! ### Cores -/

/-- Core `c` of sled `sl`. -/
def State.core (s : State) (sl : SledId) (c : CoreId) : Core := (s.sled sl).core c
/-- Change core `c` of sled `sl`. -/
def State.onCore (s : State) (sl : SledId) (c : CoreId) (f : Core → Core) : State := s.setSled sl ((s.sled sl).onCore c f)
/-- Count `n` events of Table 13.4 on a sled for a tenant. -/
def State.tally (s : State) (sl : SledId) (t : TenantId) (idx n : Nat) : State := s.setSled sl ((s.sled sl).tally t.val idx n)

/-- The core may issue: its sled runs, start-up left it in, it runs a thread, no debug halt holds it, and no SCHED is to be taken first (R129). -/
def Sled.mayIssue (d : Sled) (c : CoreId) : Bool :=
  !d.ended && d.coreUp c && (d.core c).entry.isSome && !(d.core c).halted && ((d.core c).sched.isNone || bit (d.core c).state 2)

/-! ### Fetch -/

/-- What a fetch gives: the word, a stall, or a fault of the fetched instruction. -/
inductive Fetched where
  | word (i : IWord)
  | stall
  | fault (f : TFault)
deriving DecidableEq, Repr

/-- A line as the text a core may execute that last synchronized before store `mark`: as it was then (R124). -/
def Sled.textLine (d : Sled) (mark ln : Nat) : BitVec 512 × BitVec 8 :=
  match d.oldText.find? fun o => decide (o.line = ln ∧ mark ≤ o.seq) with
  | some o => (o.data, o.poison)
  | none => ((d.line ln).data, (d.line ln).poison)

/-- The word at a byte of a text line; an uncorrectable one is the fault of its fetch (R114). -/
def textWord (l : BitVec 512 × BitVec 8) (pc off : Nat) : Fetched :=
  if bit l.2 (off % 64 / 8) || bit l.2 (off % 64 / 8 + 1) then .fault { code := 0x22, va := pc } else .word (l.1.extractLsb' (8 * (off % 64)) 128)

/-- Fetch the word at PC: the text of its location as the core held it when it last synchronized, on this sled or on another (R124, R208). -/
def State.fetch (s : State) (sl : SledId) (c : CoreId) : State × Fetched :=
  let x : Ctx := s.ctx sl
  let k := s.core sl c
  let pc := k.pc.toNat
  let r := (s.sled sl).translate x k.tenant (bit k.state 0) .fetch pc
  let s := s.setSled sl r.1
  match r.2 with
  | .fault f => (s, .fault f)
  | .ok pa =>
    match r.1.target x pa with
    | .mem off =>
      if r.1.converting off then (s, .stall)
      else
        (s.setSled sl ((r.1.tallyMiss k.tenant off 16).touch x (off / 64)), textWord (r.1.textLine k.textSeq (off / 64)) pc off)
    | .farMem dst off =>
      let s := s.tally sl k.tenant 10 128
      let at' := s.server dst off
      if s.bothUp sl dst && s.answers dst off && s.inService at' then
        (s.onSled at' fun y d => (d.tallyMiss k.tenant off 16).touch y (off / 64), textWord ((s.sled at').textLine (mget k.farSeq at'.val) (off / 64)) pc off)
      else (s.remoteFail sl, .fault { code := 0x22, va := pc })
    | _ => (s, .fault { code := 2, va := pc })

/-! ### Trap entry (R125, R133) -/

/-- The registers that trap entry writes, and where PC goes. -/
def Core.enterTrap (k : Core) (code level : Nat) (ea : Word64) (after : Bool) : Core :=
  { k with
    epc := if after then k.pc + 16 else k.pc
    ecause := BitVec.ofNat 64 (code + 256 * level)
    eaddr := ea
    estate := k.state
    state := k.state ||| 7
    pc := k.tvec + if bit k.state 0 then 0x100 else 0 }

/-- The record of an exception under EXL (R133): `code` is the cause. -/
def Core.doubleRec (k : Core) (c : CoreId) (code level : Nat) (ea : Word64) : FaultRec :=
  { addr := ea, code := if 0x20 ≤ code then 7 else BitVec.ofNat 8 code, sev := 2, source := 1
    level := if code = 4 ∨ code = 5 then BitVec.ofNat 8 level else 0, unit := BitVec.ofNat 16 c.val
    detail0 := k.epc
    detail1 := if 0x20 ≤ code then BitVec.ofNat 64 (2 ^ 56 * code + k.pc.toNat % 2 ^ 56) else k.pc }

/-- The thread gives up its core: a pending SCHED is cancelled (R249). -/
def Sled.leaveCore (d : Sled) (c : CoreId) : Sled := (d.onCore c fun k => { k with sched := none }).releaseCore c

/-- An exception under EXL ends the thread (R133). -/
def Sled.doubleFault (x : Ctx) (d : Sled) (c : CoreId) (code level : Nat) (ea : Word64) : Sled :=
  let k := d.core c
  match k.entry with
  | none => d
  | some e =>
    let die := dieOf c
    let d := (d.stage x k.tenant (k.doubleRec c code level ea)).saveCtx x c (d.ent die e).ctx k.state
    (d.endThread x die e 0).leaveCore c

/-- Take a synchronous exception on a core with nothing in flight. -/
def Sled.takeTrap (x : Ctx) (d : Sled) (c : CoreId) (code level : Nat) (ea : Word64) (after : Bool) : Sled :=
  if bit (d.core c).state 1 then d.doubleFault x c code level ea
  else (d.onCore c fun k => k.enterTrap code level ea after).syncText x c

/-- Raise a synchronous exception: it waits for every operation in flight (R125 step 1); `s0` is the state while it waits. -/
def State.trap (s0 s : State) (sl : SledId) (c : CoreId) (code level : Nat) (ea : Word64) (after : Bool) : State :=
  if (s.core sl c).flights ≠ [] then s0
  else s.setSled sl ((s.sled sl).takeTrap (s.ctx sl) c code level ea after)

/-- The entry of a failed walk is kept for its core (R195). -/
def Sled.noteWalk (d : Sled) (c : CoreId) (f : TFault) : Sled :=
  if f.reason = 0 then d
  else (d.w64 .mmuWalkLast (BitVec.ofNat 64 f.entryPa) c).w32 .mmuWalkLastReason (BitVec.ofNat 32 (f.reason + 256 * f.level)) c

/-- Raise the exception of a translation fault: LEVEL is the walk level for 0x04 and 0x05 (Table 4.7). -/
def State.trapFault (s0 s : State) (sl : SledId) (c : CoreId) (f : TFault) : State :=
  State.trap s0 (s.setSled sl ((s.sled sl).noteWalk c f)) sl c f.code (if f.code = 4 ∨ f.code = 5 then f.level else 0)
    (BitVec.ofNat 64 f.va) false

/-! ### The scoreboard -/

/-- An operation in flight writes this register. -/
def Core.waits (k : Core) (r : RSet) (n : Nat) : Bool :=
  k.flights.any fun f => match r, f.dst with
    | .s, .s m => decide (m = n)
    | .w, .w m => decide (m = n)
    | .t, .t m => decide (m = n)
    | _, _ => false

/-- The instruction waits for a register (R111) or for the in-flight limit (R112). -/
def Core.busy (k : Core) (sp : ISpec) (i : IWord) : Bool :=
  ((sources sp i).any fun r => k.waits r.1 r.2) || k.waits sp.d (iD i) || decide (256 ≤ k.flights.length)

/-- The VA of the first poisoned source, in the order A, B, C, old tile (R114, R181). PREF reads none (R152). -/
def Core.poisoned (k : Core) (sp : ISpec) (i : IWord) : Option Word64 :=
  if sp.mn = .pref then none else (sources sp i).findSome? fun r => k.poison r.1 r.2

/-! ### Issue -/

/-- What an instruction does once it issues: it goes on to the next one or jumps, its thread has left the core, it raises an exception before issue, it has done
a part and has still to issue (R390), or it waits. -/
inductive XOut where
  | next (s : State)
  | part (s : State)
  | jump (s : State) (pc : Word64)
  | left (s : State)
  | trap (s : State) (code : Nat) (ea : Word64) (after : Bool)
  | fault (s : State) (f : TFault)
  | wait
deriving DecidableEq, Repr

/-- An issued instruction: counted (index 6), SRCOUNT stepped where SR is set (R120), and PC moved on. -/
def State.retire (s : State) (sl : SledId) (c : CoreId) (t : TenantId) (i : IWord) (pc : Word64) : State :=
  (s.tally sl t 6 1).onCore sl c fun k => { k.stepSr i with pc := pc }

/-- Carry out an issue: `s0` is the state while the instruction waits. -/
def XOut.done (o : XOut) (s0 : State) (sl : SledId) (c : CoreId) (k : Core) (i : IWord) : State :=
  match o with
  | .next s => s.retire sl c k.tenant i (k.pc + 16)
  | .part s => s
  | .jump s pc => s.retire sl c k.tenant i pc
  | .left s => s.tally sl k.tenant 6 1
  | .trap s code ea after => State.trap s0 s sl c code 0 ea after
  | .fault s f => State.trapFault s0 s sl c f
  | .wait => s0

/-- Issue a fetched word as the instruction `sp`: the checks that precede its effect, in the order of R127 and R110. -/
def State.issue (s0 s : State) (sl : SledId) (c : CoreId) (i : IWord) (sp : ISpec) (body : State → IWord → XOut) : State :=
  let k := s.core sl c
  if !legal sp i then State.trap s0 s sl c 7 0 0 false
  else if needsKernel sp i && !bit k.state 0 then State.trap s0 s sl c 2 0 0 false
  else if decide (sp.pred = .scalar) && !bit (k.pred i) 0 then
    (s.tally sl k.tenant 6 1).onCore sl c fun k => { k with pc := k.pc + 16 }
  else if k.busy sp i then s0
  else match k.poisoned sp i with
    | some va => State.trap s0 s sl c 0x22 0 va false
    | none => (body s i).done s0 sl c k i

/-- A row that names an instruction: it issues on its core when the word at PC is that instruction; otherwise nothing happens. -/
def State.xehal (s : State) (sl : SledId) (c : CoreId) (mn : Mn) (body : State → IWord → XOut) : State :=
  if !(s.sled sl).mayIssue c then s
  else
    let f := s.fetch sl c
    match f.2 with
    | .word i =>
      match specOf i with
      | some sp => if sp.mn = mn then State.issue s f.1 sl c i sp body else s
      | none => s
    | _ => s

/-- RESERVED_OPCODE: a word whose OP and FN are reserved or undefined raises ILLEGAL (R107, R141). -/
def execReservedOpcode (sl : SledId) (c : CoreId) (s : State) : Host.Outcome State Fault Refusal :=
  .next (if !(s.sled sl).mayIssue c then s
    else match (s.fetch sl c).2 with
      | .word i => match specOf i with
        | none => State.trap s (s.fetch sl c).1 sl c 7 0 0 false
        | some _ => s
      | _ => s)

/-- FETCH_FAULT: the exception of the fetch at PC (R124, R150, R183, R114). -/
def execFetchFault (sl : SledId) (c : CoreId) (s : State) : Host.Outcome State Fault Refusal :=
  .next (if !(s.sled sl).mayIssue c then s
    else match (s.fetch sl c).2 with
      | .fault f => State.trapFault s (s.fetch sl c).1 sl c f
      | _ => s)

end Sys2Proof.Machine
end

