-- ==== Sys2Proof/Machine/Integer.lean ====
section
/-! DEFINITION. The integer instructions (Table 5.3, R118, R144), scalar and wide. -/
namespace Sys2Proof.Machine

/-- An integer function: width, U, SAT, A, B; the `w`-bit result and its flags. -/
abbrev IntFn := Nat → Bool → Bool → Nat → Nat → Nat × Nat

/-- Active 32-bit lanes of elements of width `w` among `n` (Table 13.4 index 7). -/
def activeLanes (p : Word64) (w n : Nat) : Nat := ((List.range n).countP fun e => elemOn p w e) * w / 32

/-- The flags of the active elements together (R115). -/
def orFlags (p : Word64) (w n : Nat) (f : Nat → Nat) : Nat :=
  (List.range n).foldl (fun a e => if elemOn p w e then a ||| f e else a) 0

/-- The scalar form: the low `w` bits of each source, the result extended (R143). -/
def Core.intScalar (k : Core) (i : IWord) (f : IntFn) : Core :=
  let w := tWidth (iT i)
  let r := f w (iU i) (iSat i) ((k.getS (iA i)).toNat % 2 ^ w) (k.opB i % 2 ^ w)
  (k.putS (iD i) (extend w (!iU i) r.1)).flag r.2

/-- The wide form, per active element (R109). -/
def Core.intWide (k : Core) (i : IWord) (f : IntFn) : Core :=
  let w := tWidth (iT i)
  let p := k.pred i
  let r := fun e => f w (iU i) (iSat i) (elt w (k.getW (iA i)) e) (k.eltB i w e)
  (k.putElts (iD i) w (elemOn p w) fun e => (r e).1).flag (orFlags p w (2048 / w) fun e => (r e).2)

/-- An integer instruction in either form. -/
def State.intOp (sl : SledId) (c : CoreId) (f : IntFn) (s : State) (i : IWord) : XOut :=
  if iOp i = 0x10 then
    let k := s.core sl c
    .next ((s.tally sl k.tenant 7 (activeLanes (k.pred i) (tWidth (iT i)) (tCount (iT i)))).onCore sl c fun k => k.intWide i f)
  else .next (s.onCore sl c fun k => k.intScalar i f)

/-- A value wrapped, or clamped under SAT (R118). -/
def arith (w : Nat) (uns sat : Bool) (v : Int) : Nat := if sat then clampInt w uns v else wrapInt w v

def fnAdd : IntFn := fun w u sat a b => (arith w u sat (ival w u a + ival w u b), 0)
def fnSub : IntFn := fun w u sat a b => (arith w u sat (ival w u a - ival w u b), 0)
def fnMul : IntFn := fun w u sat a b => (arith w u sat (ival w u a * ival w u b), 0)
/-- The high half of the product. -/
def fnMulh : IntFn := fun w u _ a b => (wrapInt w (ival w u a * ival w u b / 2 ^ w), 0)
/-- The quotient toward zero; by zero all ones and DZ (R118). -/
def fnDiv : IntFn := fun w u _ a b => if b = 0 then (2 ^ w - 1, fDZ) else (wrapInt w ((ival w u a).tdiv (ival w u b)), 0)
/-- The remainder with the sign of A; by zero the dividend and DZ (R118). -/
def fnRem : IntFn := fun w u _ a b => if b = 0 then (a, fDZ) else (wrapInt w ((ival w u a).tmod (ival w u b)), 0)
def fnAnd : IntFn := fun _ _ _ a b => (a &&& b, 0)
def fnOr : IntFn := fun _ _ _ a b => (a ||| b, 0)
def fnXor : IntFn := fun _ _ _ a b => (a ^^^ b, 0)
/-- Shift counts are taken modulo the width (R118). -/
def fnShl : IntFn := fun w _ _ a b => (a * 2 ^ (b % w) % 2 ^ w, 0)
def fnShr : IntFn := fun w _ _ a b => (a / 2 ^ (b % w), 0)
/-- The sign bit is shifted in whatever U (R144). -/
def fnSra : IntFn := fun w _ _ a b => (wrapInt w (sval w a / 2 ^ (b % w)), 0)
def fnMin : IntFn := fun w u _ a b => (if ival w u b < ival w u a then b else a, 0)
def fnMax : IntFn := fun w u _ a b => (if ival w u a < ival w u b then b else a, 0)
def fnSeq : IntFn := fun _ _ _ a b => (if a = b then 1 else 0, 0)
def fnSlt : IntFn := fun w u _ a b => (if ival w u a < ival w u b then 1 else 0, 0)
def fnSle : IntFn := fun w u _ a b => (if ival w u a ≤ ival w u b then 1 else 0, 0)
/-- Leading zeros in `w` bits. -/
def fnClz : IntFn := fun w _ _ a _ => (if a = 0 then w else w - 1 - Nat.log2 a, 0)
/-- Set bits in `w` bits. -/
def fnPopc : IntFn := fun w _ _ a _ => (popc (BitVec.ofNat w a), 0)

def execAdd (sl : SledId) (c : CoreId) (s : State) : Host.Outcome State Fault Refusal := .next (s.xehal sl c .add (State.intOp sl c fnAdd))
def execSub (sl : SledId) (c : CoreId) (s : State) : Host.Outcome State Fault Refusal := .next (s.xehal sl c .sub (State.intOp sl c fnSub))
def execMul (sl : SledId) (c : CoreId) (s : State) : Host.Outcome State Fault Refusal := .next (s.xehal sl c .mul (State.intOp sl c fnMul))
def execMulh (sl : SledId) (c : CoreId) (s : State) : Host.Outcome State Fault Refusal := .next (s.xehal sl c .mulh (State.intOp sl c fnMulh))
def execDiv (sl : SledId) (c : CoreId) (s : State) : Host.Outcome State Fault Refusal := .next (s.xehal sl c .div (State.intOp sl c fnDiv))
def execRem (sl : SledId) (c : CoreId) (s : State) : Host.Outcome State Fault Refusal := .next (s.xehal sl c .rem (State.intOp sl c fnRem))
def execAnd (sl : SledId) (c : CoreId) (s : State) : Host.Outcome State Fault Refusal := .next (s.xehal sl c .and (State.intOp sl c fnAnd))
def execOr (sl : SledId) (c : CoreId) (s : State) : Host.Outcome State Fault Refusal := .next (s.xehal sl c .or (State.intOp sl c fnOr))
def execXor (sl : SledId) (c : CoreId) (s : State) : Host.Outcome State Fault Refusal := .next (s.xehal sl c .xor (State.intOp sl c fnXor))
def execShl (sl : SledId) (c : CoreId) (s : State) : Host.Outcome State Fault Refusal := .next (s.xehal sl c .shl (State.intOp sl c fnShl))
def execShr (sl : SledId) (c : CoreId) (s : State) : Host.Outcome State Fault Refusal := .next (s.xehal sl c .shr (State.intOp sl c fnShr))
def execSra (sl : SledId) (c : CoreId) (s : State) : Host.Outcome State Fault Refusal := .next (s.xehal sl c .sra (State.intOp sl c fnSra))
def execMin (sl : SledId) (c : CoreId) (s : State) : Host.Outcome State Fault Refusal := .next (s.xehal sl c .min (State.intOp sl c fnMin))
def execMax (sl : SledId) (c : CoreId) (s : State) : Host.Outcome State Fault Refusal := .next (s.xehal sl c .max (State.intOp sl c fnMax))
def execSeq (sl : SledId) (c : CoreId) (s : State) : Host.Outcome State Fault Refusal := .next (s.xehal sl c .seq (State.intOp sl c fnSeq))
def execSlt (sl : SledId) (c : CoreId) (s : State) : Host.Outcome State Fault Refusal := .next (s.xehal sl c .slt (State.intOp sl c fnSlt))
def execSle (sl : SledId) (c : CoreId) (s : State) : Host.Outcome State Fault Refusal := .next (s.xehal sl c .sle (State.intOp sl c fnSle))
def execClz (sl : SledId) (c : CoreId) (s : State) : Host.Outcome State Fault Refusal := .next (s.xehal sl c .clz (State.intOp sl c fnClz))
def execPopc (sl : SledId) (c : CoreId) (s : State) : Host.Outcome State Fault Refusal := .next (s.xehal sl c .popc (State.intOp sl c fnPopc))

end Sys2Proof.Machine
end

