-- ==== Sys2Proof/Machine/Float.lean ====
section
/-! DEFINITION. The floating-point instructions (Table 5.4, R145, R146), scalar and wide, and conversions (R157): FCVT and CVT. -/
namespace Sys2Proof.Machine

/-- A floating-point function: format, rounding, A, B, C. -/
abbrev FpFn := Fmt → Rnd → Nat → Nat → Nat → FRes

/-- The scalar form: the result is zero-extended (R143). -/
def Core.fpScalar (k : Core) (i : IWord) (f : FpFn) : Core :=
  let w := tWidth (iT i)
  let r := f (tFmt (iT i)) (k.rnd i 0) ((k.getS (iA i)).toNat % 2 ^ w) (k.opB i % 2 ^ w) ((k.getS (iC i)).toNat % 2 ^ w)
  (k.putS (iD i) (extend w false r.bits)).flag r.flags

/-- The wide form, per active element (R109). -/
def Core.fpWide (k : Core) (i : IWord) (f : FpFn) : Core :=
  let w := tWidth (iT i)
  let p := k.pred i
  let r := fun e => f (tFmt (iT i)) (k.rnd i e) (elt w (k.getW (iA i)) e) (k.eltB i w e) (elt w (k.getW (iC i)) e)
  (k.putElts (iD i) w (elemOn p w) fun e => (r e).bits).flag (orFlags p w (2048 / w) fun e => (r e).flags)

/-- A floating-point instruction in either form. -/
def State.fpOp (sl : SledId) (c : CoreId) (f : FpFn) (s : State) (i : IWord) : XOut :=
  if iOp i = 0x11 then
    let k := s.core sl c
    .next ((s.tally sl k.tenant 7 (activeLanes (k.pred i) (tWidth (iT i)) (tCount (iT i)))).onCore sl c fun k => k.fpWide i f)
  else .next (s.onCore sl c fun k => k.fpScalar i f)

def fnFadd : FpFn := fun f r a b _ => f.add r a b
def fnFsub : FpFn := fun f r a b _ => f.sub r a b
def fnFmul : FpFn := fun f r a b _ => f.mul r a b
def fnFfma : FpFn := fun f r a b c => f.fma r a b c
def fnFdiv : FpFn := fun f r a b _ => f.div r a b
def fnFsqrt : FpFn := fun f r a _ _ => f.sqrt r a
def fnFmin : FpFn := fun f _ a b _ => f.minmax false a b
def fnFmax : FpFn := fun f _ a b _ => f.minmax true a b
/-- The sign inverted. -/
def fnFneg : FpFn := fun f _ a _ _ => f.setSign a (!f.neg a)
def fnFabs : FpFn := fun f _ a _ _ => f.setSign a false
/-- A comparison: 0 equal, 1 less, 2 less or equal (R146). -/
def fnFcmp (kind : Nat) : FpFn := fun f _ a b _ => ⟨if (f.cmp kind a b).1 then 1 else 0, (f.cmp kind a b).2⟩

/-! ### Conversions -/

/-- Convert an element of type `src` to type `dst` (R117, R118, R157). -/
def convert (src dst : Nat) (uns sat : Bool) (r : Rnd) (v : Nat) : FRes :=
  if src < 3 then
    let n := ival (tWidth src) uns v
    if dst < 3 then ⟨arith (tWidth dst) uns sat n, 0⟩ else (tFmt dst).ofVal r (Val.ofInt n) sat
  else if dst < 3 then intOfVal (tWidth dst) uns r ((tFmt src).unpack v)
  else (tFmt dst).ofVal r ((tFmt src).unpack v) sat

/-- FCVT: the source type is IMM[2:0]; an integer result is extended by U (R143). -/
def Core.fcvt (k : Core) (i : IWord) : Core :=
  let src := (iImm i).toNat % 8
  let r := convert src (iT i) (iU i) (iSat i) (k.rnd i 0) ((k.getS (iA i)).toNat % 2 ^ tWidth src)
  (k.putS (iD i) (extend (tWidth (iT i)) (decide (iT i < 3) && !iU i) r.bits)).flag r.flags

/-- The source element that CVT brings to destination element `e`, if any (R157). -/
def cvtFrom (src dst part e : Nat) : Option Nat :=
  let ns := tCount src
  let nd := tCount dst
  if ns < nd then (if part * ns ≤ e ∧ e < (part + 1) * ns then some (e - part * ns) else none)
  else if nd < ns then some (part * nd + e)
  else some e

/-- The destination elements of a CVT that are active and receive an element. -/
def Core.cvtOn (k : Core) (i : IWord) (e : Nat) : Bool :=
  elemOn (k.pred i) (tWidth (iT i)) e && (cvtFrom ((iImm i).toNat % 8) (iT i) (fld (iImm i) 9 8) e).isSome

/-- CVT: destination elements that receive nothing are unchanged. -/
def Core.cvt (k : Core) (i : IWord) : Core :=
  let src := (iImm i).toNat % 8
  let w := tWidth (iT i)
  let r := fun e => convert src (iT i) (iU i) (iSat i) (k.rnd i e)
    (elt (tWidth src) (k.getW (iA i)) ((cvtFrom src (iT i) (fld (iImm i) 9 8) e).getD 0))
  (k.putElts (iD i) w (k.cvtOn i) fun e => (r e).bits).flag
    ((List.range (2048 / w)).foldl (fun a e => if k.cvtOn i e then a ||| (r e).flags else a) 0)

/-- CVT counts the lanes it writes. -/
def State.cvtOp (sl : SledId) (c : CoreId) (s : State) (i : IWord) : XOut :=
  let k := s.core sl c
  let n := ((List.range (tCount (iT i))).countP fun e => k.cvtOn i e) * tWidth (iT i) / 32
  .next ((s.tally sl k.tenant 7 n).onCore sl c fun k => k.cvt i)

def execFcvt (sl : SledId) (c : CoreId) (s : State) : Host.Outcome State Fault Refusal := .next (s.xehal sl c .fcvt fun s i => .next (s.onCore sl c fun k => k.fcvt i))
def execCvt (sl : SledId) (c : CoreId) (s : State) : Host.Outcome State Fault Refusal := .next (s.xehal sl c .cvt (State.cvtOp sl c))
def execFadd (sl : SledId) (c : CoreId) (s : State) : Host.Outcome State Fault Refusal := .next (s.xehal sl c .fadd (State.fpOp sl c fnFadd))
def execFsub (sl : SledId) (c : CoreId) (s : State) : Host.Outcome State Fault Refusal := .next (s.xehal sl c .fsub (State.fpOp sl c fnFsub))
def execFmul (sl : SledId) (c : CoreId) (s : State) : Host.Outcome State Fault Refusal := .next (s.xehal sl c .fmul (State.fpOp sl c fnFmul))
def execFfma (sl : SledId) (c : CoreId) (s : State) : Host.Outcome State Fault Refusal := .next (s.xehal sl c .ffma (State.fpOp sl c fnFfma))
def execFdiv (sl : SledId) (c : CoreId) (s : State) : Host.Outcome State Fault Refusal := .next (s.xehal sl c .fdiv (State.fpOp sl c fnFdiv))
def execFsqrt (sl : SledId) (c : CoreId) (s : State) : Host.Outcome State Fault Refusal := .next (s.xehal sl c .fsqrt (State.fpOp sl c fnFsqrt))
def execFmin (sl : SledId) (c : CoreId) (s : State) : Host.Outcome State Fault Refusal := .next (s.xehal sl c .fmin (State.fpOp sl c fnFmin))
def execFmax (sl : SledId) (c : CoreId) (s : State) : Host.Outcome State Fault Refusal := .next (s.xehal sl c .fmax (State.fpOp sl c fnFmax))
def execFneg (sl : SledId) (c : CoreId) (s : State) : Host.Outcome State Fault Refusal := .next (s.xehal sl c .fneg (State.fpOp sl c fnFneg))
def execFabs (sl : SledId) (c : CoreId) (s : State) : Host.Outcome State Fault Refusal := .next (s.xehal sl c .fabs (State.fpOp sl c fnFabs))
def execFeq (sl : SledId) (c : CoreId) (s : State) : Host.Outcome State Fault Refusal := .next (s.xehal sl c .feq (State.fpOp sl c (fnFcmp 0)))
def execFlt (sl : SledId) (c : CoreId) (s : State) : Host.Outcome State Fault Refusal := .next (s.xehal sl c .flt (State.fpOp sl c (fnFcmp 1)))
def execFle (sl : SledId) (c : CoreId) (s : State) : Host.Outcome State Fault Refusal := .next (s.xehal sl c .fle (State.fpOp sl c (fnFcmp 2)))

end Sys2Proof.Machine
end

