-- ==== Sys2Proof/Machine/Lanes.lean ====
section
/-! DEFINITION. Moves between sets (Table 5.5), compares and predicate logic (Table 5.6), permutes, selects and reductions (Table 5.11, R156, R158). -/
namespace Sys2Proof.Machine

/-- A wide instruction that counts its active lanes and changes only its core. -/
def State.laneOp (sl : SledId) (c : CoreId) (f : Core → IWord → Core) (s : State) (i : IWord) : XOut :=
  let k := s.core sl c
  .next ((s.tally sl k.tenant 7 (activeLanes (k.pred i) (tWidth (iT i)) (tCount (iT i)))).onCore sl c fun k => f k i)

/-- An instruction that counts `n` lanes and changes only its core. -/
def State.coreOp (sl : SledId) (c : CoreId) (n : Nat) (f : Core → IWord → Core) (s : State) (i : IWord) : XOut :=
  let k := s.core sl c
  .next ((s.tally sl k.tenant 7 n).onCore sl c fun k => f k i)

/-! ### Moves (R147) -/

def Core.movi (k : Core) (i : IWord) : Core := k.putS (iD i) (iImm i)
/-- Each active element takes the low element of sA. -/
def Core.wbcast (k : Core) (i : IWord) : Core :=
  let w := tWidth (iT i)
  k.putElts (iD i) w (elemOn (k.pred i) w) fun _ => (k.getS (iA i)).toNat % 2 ^ w
/-- Element IMM takes the low element of sA; the others stay. -/
def Core.wins (k : Core) (i : IWord) : Core :=
  let w := tWidth (iT i)
  k.putElts (iD i) w (fun e => decide (e = (iImm i).toNat)) fun _ => (k.getS (iA i)).toNat % 2 ^ w
/-- Element IMM of wA, extended (R143). -/
def Core.wext (k : Core) (i : IWord) : Core :=
  let w := tWidth (iT i)
  k.putS (iD i) (extend w (decide (iT i < 3) && !iU i) (elt w (k.getW (iA i)) (iImm i).toNat))
def Core.pmov (k : Core) (i : IWord) : Core := k.putS (iD i) (k.getP (iA i))
def Core.pset (k : Core) (i : IWord) : Core := k.putP (iD i) (k.getS (iA i))
/-- Each active element takes IMM. -/
def Core.wmovi (k : Core) (i : IWord) : Core :=
  let w := tWidth (iT i)
  k.putElts (iD i) w (elemOn (k.pred i) w) fun _ => (iImm i).toNat % 2 ^ w

def execMovi (sl : SledId) (c : CoreId) (s : State) : Host.Outcome State Fault Refusal := .next (s.xehal sl c .movi fun s i => .next (s.onCore sl c fun k => k.movi i))
def execWbcast (sl : SledId) (c : CoreId) (s : State) : Host.Outcome State Fault Refusal := .next (s.xehal sl c .wbcast (State.laneOp sl c Core.wbcast))
def execWins (sl : SledId) (c : CoreId) (s : State) : Host.Outcome State Fault Refusal :=
  .next (s.xehal sl c .wins fun s i => State.coreOp sl c (max 1 (tWidth (iT i) / 32)) Core.wins s i)
def execWext (sl : SledId) (c : CoreId) (s : State) : Host.Outcome State Fault Refusal :=
  .next (s.xehal sl c .wext fun s i => State.coreOp sl c (max 1 (tWidth (iT i) / 32)) Core.wext s i)
def execPmov (sl : SledId) (c : CoreId) (s : State) : Host.Outcome State Fault Refusal := .next (s.xehal sl c .pmov fun s i => .next (s.onCore sl c fun k => k.pmov i))
def execPset (sl : SledId) (c : CoreId) (s : State) : Host.Outcome State Fault Refusal := .next (s.xehal sl c .pset fun s i => .next (s.onCore sl c fun k => k.pset i))
def execWmovi (sl : SledId) (c : CoreId) (s : State) : Host.Outcome State Fault Refusal := .next (s.xehal sl c .wmovi (State.laneOp sl c Core.wmovi))

/-! ### Compares (R146, R148) -/

/-- What a compare says of two elements of type `t`, with its flags: `kind` 0 is =, 1 is ≠, 2 is <, 3 is ≤. -/
def cmpElt (t : Nat) (uns : Bool) (kind a b : Nat) : Bool × Nat :=
  if t = 3 then
    let r := Fmt.fp32.cmp (if kind ≤ 1 then 0 else kind - 1) a b
    (if kind = 1 then !r.1 else r.1, r.2)
  else
    let x := ival (tWidth t) uns a
    let y := ival (tWidth t) uns b
    (if kind = 0 then decide (x = y) else if kind = 1 then decide (x ≠ y) else if kind = 2 then decide (x < y) else decide (x ≤ y), 0)

/-- A compare: bit j of pD for each active lane j; both bits of a 64-bit element. -/
def Core.cmpWide (kind : Nat) (k : Core) (i : IWord) : Core :=
  let w := tWidth (iT i)
  let p := k.pred i
  let r := fun e => cmpElt (iT i) (iU i) kind (elt w (k.getW (iA i)) e) (k.eltB i w e)
  let old := k.getP (iD i)
  let at' := fun j => if w = 64 then j / 2 else j
  let v := BitVec.ofNat 64 ((List.range 64).foldl (fun a j =>
    a + if (if elemOn p w (at' j) then (r (at' j)).1 else bit old j) then 2 ^ j else 0) 0)
  (k.putP (iD i) v).flag (orFlags p w (2048 / w) fun e => (r e).2)

/-- Predicate logic; pB is IMM with I = 1 (R142). -/
def Core.predOp (f : Word64 → Word64 → Word64) (k : Core) (i : IWord) : Core :=
  k.putP (iD i) (f (k.getP (iA i)) (if iI i then iImm i else k.getP (iB i)))

def execCeq (sl : SledId) (c : CoreId) (s : State) : Host.Outcome State Fault Refusal := .next (s.xehal sl c .ceq (State.laneOp sl c (Core.cmpWide 0)))
def execCne (sl : SledId) (c : CoreId) (s : State) : Host.Outcome State Fault Refusal := .next (s.xehal sl c .cne (State.laneOp sl c (Core.cmpWide 1)))
def execClt (sl : SledId) (c : CoreId) (s : State) : Host.Outcome State Fault Refusal := .next (s.xehal sl c .clt (State.laneOp sl c (Core.cmpWide 2)))
def execCle (sl : SledId) (c : CoreId) (s : State) : Host.Outcome State Fault Refusal := .next (s.xehal sl c .cle (State.laneOp sl c (Core.cmpWide 3)))
def execPand (sl : SledId) (c : CoreId) (s : State) : Host.Outcome State Fault Refusal :=
  .next (s.xehal sl c .pand fun s i => .next (s.onCore sl c fun k => k.predOp (fun a b => a &&& b) i))
def execPor (sl : SledId) (c : CoreId) (s : State) : Host.Outcome State Fault Refusal :=
  .next (s.xehal sl c .por fun s i => .next (s.onCore sl c fun k => k.predOp (fun a b => a ||| b) i))
def execPxor (sl : SledId) (c : CoreId) (s : State) : Host.Outcome State Fault Refusal :=
  .next (s.xehal sl c .pxor fun s i => .next (s.onCore sl c fun k => k.predOp (fun a b => a ^^^ b) i))
def execPandn (sl : SledId) (c : CoreId) (s : State) : Host.Outcome State Fault Refusal :=
  .next (s.xehal sl c .pandn fun s i => .next (s.onCore sl c fun k => k.predOp (fun a b => a &&& ~~~b) i))
def execPnot (sl : SledId) (c : CoreId) (s : State) : Host.Outcome State Fault Refusal :=
  .next (s.xehal sl c .pnot fun s i => .next (s.onCore sl c fun k => k.predOp (fun a _ => ~~~a) i))

/-! ### Permutes and selects (R156) -/

/-- Lane j takes lane (wB lane j mod 64) of wA. -/
def Core.wperm (k : Core) (i : IWord) : Core :=
  k.putElts (iD i) 32 (elemOn (k.pred i) 32) fun j => elt 32 (k.getW (iA i)) (elt 32 (k.getW (iB i)) j % 64)
/-- Lane j takes lane (j − n) mod 64 of wA. -/
def Core.wrot (k : Core) (i : IWord) : Core :=
  k.putElts (iD i) 32 (elemOn (k.pred i) 32) fun j => elt 32 (k.getW (iA i)) ((j + 64 - (iImm i).toNat % 64) % 64)
/-- Every lane is written: from wA where active, from wB where not. -/
def Core.wsel (k : Core) (i : IWord) : Core :=
  k.putElts (iD i) 32 (fun _ => true) fun j => elt 32 (if elemOn (k.pred i) 32 j then k.getW (iA i) else k.getW (iB i)) j

def execWperm (sl : SledId) (c : CoreId) (s : State) : Host.Outcome State Fault Refusal := .next (s.xehal sl c .wperm (State.laneOp sl c Core.wperm))
def execWrot (sl : SledId) (c : CoreId) (s : State) : Host.Outcome State Fault Refusal := .next (s.xehal sl c .wrot (State.laneOp sl c Core.wrot))
def execWsel (sl : SledId) (c : CoreId) (s : State) : Host.Outcome State Fault Refusal := .next (s.xehal sl c .wsel (State.coreOp sl c 64 Core.wsel))

/-! ### Reductions (R158) -/

/-- The active elements of wA in order. -/
def Core.activeElts (k : Core) (i : IWord) : List Nat :=
  let w := tWidth (iT i)
  ((List.range (tCount (iT i))).filter fun e => elemOn (k.pred i) w e).map fun e => elt w (k.getW (iA i)) e

/-- The sum, formed exactly and narrowed once; 0 with no active element. -/
def redAdd (t : Nat) (uns sat : Bool) (r : Rnd) (l : List Nat) : FRes :=
  if t < 3 then ⟨arith (tWidth t) uns sat ((l.map fun v => ival (tWidth t) uns v).foldl (· + ·) 0), 0⟩
  else if l.isEmpty then ⟨0, 0⟩
  else
    let vs := l.map (tFmt t).unpack
    (tFmt t).sum r vs false (snanFlag vs)

/-- The least or greatest element; with none, the other end of the type. -/
def redMinMax (wantMax : Bool) (t : Nat) (uns : Bool) (l : List Nat) : FRes :=
  let w := tWidth t
  if t < 3 then
    let none' := wrapInt w (if wantMax then intMin w uns else intMax w uns)
    ⟨l.foldl (fun a v => if (if wantMax then decide (ival w uns a < ival w uns v) else decide (ival w uns v < ival w uns a)) then v else a) none', 0⟩
  else
    let f := tFmt t
    let vs := l.map f.unpack
    match l.filter fun v => !anyNan [f.unpack v] with
    | v :: vs' => ⟨vs'.foldl (fun a b => (f.minmax wantMax a b).bits) v, snanFlag vs⟩
    | [] => if l.isEmpty then ⟨f.sign wantMax + f.infBits, 0⟩ else ⟨f.nan, snanFlag vs⟩

/-- A reduction writes sD whatever the predicate. -/
def Core.reduce (f : IWord → Rnd → List Nat → FRes) (k : Core) (i : IWord) : Core :=
  let r := f i (k.rnd i 0) (k.activeElts i)
  (k.putS (iD i) (extend (tWidth (iT i)) (decide (iT i < 3) && !iU i) r.bits)).flag r.flags

def execWredadd (sl : SledId) (c : CoreId) (s : State) : Host.Outcome State Fault Refusal :=
  .next (s.xehal sl c .wredadd (State.laneOp sl c (Core.reduce fun i r l => redAdd (iT i) (iU i) (iSat i) r l)))
def execWredmin (sl : SledId) (c : CoreId) (s : State) : Host.Outcome State Fault Refusal :=
  .next (s.xehal sl c .wredmin (State.laneOp sl c (Core.reduce fun i _ l => redMinMax false (iT i) (iU i) l)))
def execWredmax (sl : SledId) (c : CoreId) (s : State) : Host.Outcome State Fault Refusal :=
  .next (s.xehal sl c .wredmax (State.laneOp sl c (Core.reduce fun i _ l => redMinMax true (iT i) (iU i) l)))

end Sys2Proof.Machine
end

