-- ==== Sys2Proof/Machine/Matrix.lean ====
section
/-! DEFINITION. The matrix unit: MMA forms (R119, R159, R181), TZERO, and moves between tiles and wide registers (Table 5.12, R160). -/
namespace Sys2Proof.Machine

/-- Tile row `r` is active: bit r of the predicate, after PN (R160). -/
def Core.rowOn (k : Core) (i : IWord) (r : Nat) : Bool := bit (k.pred i) r
/-- Active tile rows. -/
def Core.rows (k : Core) (i : IWord) : Nat := (List.range 16).countP (k.rowOn i)

/-- Write the 32-bit elements of a tile that `on` selects; no write happens when it selects none (R139). -/
def Core.putTile (k : Core) (n : Nat) (on : Nat → Bool) (f : Nat → Nat) : Core :=
  let l := List.range 256
  if l.any on then k.putT n (ofElts 8192 32 256 fun e => if on e then f e else elt 32 (k.getT n) e) (l.all on) else k

/-- The inner dimension K (R159). -/
def mmaK (t : Nat) : Nat := if t < 6 then 8 else 16

/-- Tile element `e` (row e / 16, column e mod 16) of an MMA: the exact products and the old element, rounded once to FP32 (R119). -/
def Core.mmaElt (k : Core) (i : IWord) (tb : Nat) (old : Bool) (e : Nat) : FRes :=
  let t := iT i
  let kk := mmaK t
  let a := fun m => (tFmt t).unpack (elt (tWidth t) (k.getW (iA i)) (kk * (e / 16) + m))
  let b := fun m => (tFmt tb).unpack (elt (tWidth tb) (k.getW (iB i)) (16 * m + e % 16))
  let o := if old then [Fmt.fp32.unpack (elt 32 (k.getT (iD i)) e)] else []
  let ms := List.range kk
  Fmt.fp32.sum (k.rnd i e) ((ms.map fun m => (a m).mul (b m)) ++ o) (ms.any fun m => badMul (a m) (b m))
    (snanFlag ((ms.map a) ++ (ms.map b) ++ o))

/-- An MMA form: B has type `tb i`; the old tile is a term when `old`. -/
def Core.mma (tb : IWord → Nat) (old : Bool) (k : Core) (i : IWord) : Core :=
  let on := fun e => k.rowOn i (e / 16)
  (k.putTile (iD i) on fun e => (k.mmaElt i (tb i) old e).bits).flag
    ((List.range 256).foldl (fun a e => if on e then a ||| (k.mmaElt i (tb i) old e).flags else a) 0)

/-- MMA forms count their FMAs: index 4 for FP16 and BF16, 5 for FP8 (R431). -/
def State.mmaOp (sl : SledId) (c : CoreId) (tb : IWord → Nat) (old : Bool) (s : State) (i : IWord) : XOut :=
  let k := s.core sl c
  .next ((s.tally sl k.tenant (if iT i < 6 then 4 else 5) (k.rows i * 16 * mmaK (iT i))).onCore sl c fun k => k.mma tb old i)

def execMma (sl : SledId) (c : CoreId) (s : State) : Host.Outcome State Fault Refusal := .next (s.xehal sl c .mma (State.mmaOp sl c iT true))
/-- MMAX: B is the other FP8 type. -/
def execMmax (sl : SledId) (c : CoreId) (s : State) : Host.Outcome State Fault Refusal := .next (s.xehal sl c .mmax (State.mmaOp sl c (fun i => 13 - iT i) true))
/-- MMAZ does not read the old tile. -/
def execMmaz (sl : SledId) (c : CoreId) (s : State) : Host.Outcome State Fault Refusal := .next (s.xehal sl c .mmaz (State.mmaOp sl c iT false))

/-- The active rows become +0. -/
def Core.tzero (k : Core) (i : IWord) : Core := k.putTile (iD i) (fun e => k.rowOn i (e / 16)) fun _ => 0
/-- The active lanes take rows 4g to 4g + 3 of tA. -/
def Core.trd (k : Core) (i : IWord) : Core :=
  k.putElts (iD i) 32 (elemOn (k.pred i) 32) fun j => elt 32 (k.getT (iA i)) (64 * ((iImm i).toNat % 4) + j)
/-- The active lanes of wA go to rows 4g to 4g + 3 of tD: a partial write (R181). -/
def Core.twr (k : Core) (i : IWord) : Core :=
  let g := (iImm i).toNat % 4
  k.putTile (iD i) (fun e => decide (e / 64 = g) && elemOn (k.pred i) 32 (e % 64)) fun e => elt 32 (k.getW (iA i)) (e % 64)

def execTzero (sl : SledId) (c : CoreId) (s : State) : Host.Outcome State Fault Refusal :=
  .next (s.xehal sl c .tzero fun s i => State.coreOp sl c (16 * (s.core sl c).rows i) Core.tzero s i)
def execTrd (sl : SledId) (c : CoreId) (s : State) : Host.Outcome State Fault Refusal := .next (s.xehal sl c .trd (State.laneOp sl c Core.trd))
def execTwr (sl : SledId) (c : CoreId) (s : State) : Host.Outcome State Fault Refusal := .next (s.xehal sl c .twr (State.laneOp sl c Core.twr))

end Sys2Proof.Machine
end

