-- ==== Sys2Proof/Machine/Access.lean ====
section
/-! DEFINITION. The memory accesses of a Xehal core: the checks before issue (R113, R127, R128, R135, R154), loads in flight and their completion (R112, R114),
stores, atomics, and the frames of accesses to other sleds (R208). -/
namespace Sys2Proof.Machine

/-! ### The checks before issue -/

/-- Rank of a fault of a memory access (R127, items 4 to 7). -/
def accessRank (code : Nat) : Nat := if code = 6 then 0 else if code = 2 then 2 else if code = 3 then 3 else 1

/-- Of two faults of one access, the one reported: the first in the order of R127, then the lowest byte address (R135). -/
def reported (a : Option TFault) (b : TFault) : TFault :=
  match a with
  | none => b
  | some a => if accessRank b.code < accessRank a.code ∨ (accessRank b.code = accessRank a.code ∧ b.va < a.va) then b else a

/-- Translate and check one piece: `dev` is the code a Device page raises, if it does. -/
def Sled.checkPiece (x : Ctx) (c : CoreId) (a : Acc) (dev : Option Nat) (r : Sled × List Piece × Option TFault) (p : Nat × Nat × Nat) :
    Sled × List Piece × Option TFault :=
  let k := r.1.core c
  let w := r.1.walk x k.tenant p.1
  let bad := fun (f : TFault) => (w.1, r.2.1, some (reported r.2.2 f))
  match w.2 with
  | .fail f => bad ⟨reasonCode f.reason, p.1, f.level, f.reason, f.entryPa⟩
  | .leaf l =>
    match (if w.1.devicePa x l.pa then dev else none), permFault (bit k.state 0) a l with
    | some code, _ => bad { code := code, va := p.1 }
    | none, some code => bad { code := code, va := p.1 }
    | none, none => (w.1, r.2.1 ++ [⟨l.pa, p.2.1, p.2.2, p.1⟩], r.2.2)

/-- The pieces of an access in address order within each span (VA, position, length), or the fault it raises. -/
def Sled.plan (x : Ctx) (d : Sled) (c : CoreId) (a : Acc) (align : Nat) (dev : Option Nat) (spans : List (Nat × Nat × Nat)) :
    Sled × Sum (List Piece) TFault :=
  let mis := spans.foldl (fun f sp => if sp.1 % align ≠ 0 then some (reported f { code := 6, va := sp.1 }) else f) none
  let ps := spans.flatMap fun sp => (pieces sp.1 sp.2.2).map fun p => (p.1 % 2 ^ 64, sp.2.1 + p.2.1, p.2.2)
  let r := ps.foldl (Sled.checkPiece x c a dev) (d, [], mis)
  match r.2.2 with
  | some f => (r.1, .inr f)
  | none => (r.1, .inl r.2.1)

/-- Config space begins here in a sled's map (Table 6.1). -/
def devBase : Nat := 0x7FFFFC000000

/-- A remote Device access of this core has not been performed yet: a younger Device access waits (R123). -/
def State.deviceBusy (s : State) (sl : SledId) (c : CoreId) : Bool :=
  s.fabric.any fun f => decide (f.src = sl ∧ f.core = c) && match f.body with
    | .rdReq off _ _ _ => decide (devBase ≤ off)
    | .wr off _ => decide (devBase ≤ off)
    | _ => false

/-- The access must wait: for a conversion of a local range (R201), the remote limit (R112), or an older Device access (R123). -/
def State.accessWaits (s : State) (sl : SledId) (c : CoreId) (ps : List Piece) : Bool :=
  let d := s.sled sl
  ps.any fun p => match d.target (s.ctx sl) p.pa with
    | .mem off => d.converting off || d.converting (off + p.len - 1)
    | .device _ => s.deviceBusy sl c
    | .farMem _ _ => decide (64 ≤ (d.core c).flights.countP (·.remote))
    | .farDevice _ _ => s.deviceBusy sl c || decide (64 ≤ (d.core c).flights.countP (·.remote))
    | .hole => false

/-! ### Loads -/

/-- Bytes laid over a value from a byte position up. -/
def layBytes (v : BitVec 8192) (pos : Nat) (bs : List Byte) : BitVec 8192 :=
  let m := BitVec.ofNat 8192 ((2 ^ (8 * bs.length) - 1) * 2 ^ (8 * pos))
  (v &&& ~~~m) ||| BitVec.ofNat 8192 (bytesNat bs * 2 ^ (8 * pos))

/-- Of two uncorrectable words, the one at the lower position (R114). -/
def firstBad (a b : Option (Nat × Word64)) : Option (Nat × Word64) :=
  match a, b with
  | some a, some b => if b.1 < a.1 then some b else some a
  | none, b => b
  | a, none => a

/-- A part of a load's data comes in: bytes for position `pos` from VA `va`, with the marks of uncorrectable ones. -/
def Flight.lay (f : Flight) (pos : Nat) (va : Word64) (bs : List Byte) (bad : List Bool) : Flight :=
  let b := match bad.findIdx? (fun b => b) with
    | some j => some (pos + j, va + BitVec.ofNat 64 j)
    | none => none
  { f with data := layBytes f.data pos bs, bad := firstBad f.bad b }

/-- A part of a load failed: its first byte poisons the destination (R209). -/
def Flight.fail (f : Flight) (pos : Nat) (va : Word64) : Flight := { f with bad := firstBad f.bad (some (pos, va)) }

/-- Send the request for a piece of an access to another sled; its bits are counted for the tenant (Table 13.4 index 10). -/
def State.send (s : State) (sl : SledId) (c : CoreId) (id : Nat) (dst : SledId) (bits : Nat) (body : Payload) : State :=
  let t := (s.core sl c).tenant
  let f : Frame := ⟨sl, dst, c, t, id, body⟩
  { s.tally sl t 10 bits with fabric := s.fabric ++ [f] }

/-- Read one piece of a load: at once on this sled, by a request to another. -/
def State.loadPiece (sl : SledId) (c : CoreId) (r : State × Flight) (p : Piece) : State × Flight :=
  let s := r.1
  let f := r.2
  let x : Ctx := s.ctx sl
  let va := BitVec.ofNat 64 p.va
  let ask := fun (dst : SledId) =>
    (s.send sl c f.id dst (8 * p.len) (.rdReq (p.pa % 2 ^ 47) p.len p.pos va), { f with asks := f.asks ++ [(p.pos, va)], remote := true })
  match (s.sled sl).target x p.pa with
  | .mem off =>
    let q := ((s.sled sl).tallyMiss (s.core sl c).tenant off p.len).coRead x off p.len
    (s.setSled sl q.1, f.lay p.pos va q.2.1 q.2.2)
  | .device off =>
    let q := s.cfgLoad (.core sl c) (.sled sl) off p.len
    (q.1, match q.2 with | .val v => f.lay p.pos va (toBytes v p.len) [] | _ => f)
  | .farMem dst _ => ask dst
  | .farDevice dst _ => ask dst
  | .hole => (s, f.fail p.pos va)

/-- Put an operation in flight on its core. -/
def State.fly (s : State) (sl : SledId) (c : CoreId) (f : Flight) : State :=
  s.onCore sl c fun k => { k with flights := k.flights ++ [f], nextId := k.nextId + 1 }

/-- A load that passed its checks: it reads at issue, and its destination is written when it completes (DESIGN CHOICE, log 70). -/
def State.startLoad (s : State) (sl : SledId) (c : CoreId) (f : Flight) (ps : List Piece) : XOut :=
  if s.accessWaits sl c ps then .wait
  else
    let f0 := { f with id := (s.core sl c).nextId, issued := s.now }
    let r := ps.foldl (State.loadPiece sl c) (s, f0)
    .next (r.1.fly sl c r.2)

/-- Check the spans of a load and start it; with no active span there is no access and no write (R139). -/
def State.loadSpans (s : State) (sl : SledId) (c : CoreId) (f : Flight) (align : Nat) (dev : Option Nat) (spans : List (Nat × Nat × Nat)) : XOut :=
  if spans.isEmpty then .next s
  else
    let p := (s.sled sl).plan (s.ctx sl) c .load align dev spans
    let s := s.setSled sl p.1
    match p.2 with
    | .inr e => .fault s e
    | .inl ps => s.startLoad sl c f ps

/-- An operation completes: it writes its destination, poisoned when a word was uncorrectable (R114); a write of the whole register
clears older poison. -/
def Core.deliver (k : Core) (f : Flight) : Core :=
  let va := f.bad.map (·.2)
  let k := { k with flights := k.flights.filter fun g => decide (g.id ≠ f.id) }
  match f.dst with
  | .none => k
  | .s n =>
    let k := k.putS n (extend (8 * f.size) f.signed (f.data.toNat % 2 ^ (8 * f.size)))
    if n = 63 ∨ va.isNone then k else { k with poisonS := mset k.poisonS n va }
  | .w n =>
    let k := k.putW n (f.data.truncate 2048) f.whole
    if va.isNone then k else { k with poisonW := mset k.poisonW n va }
  | .t n =>
    let k := k.putT n f.data f.whole
    if va.isNone then k else { k with poisonT := mset k.poisonT n va }

/-- An operation in flight. -/
def Core.flight (k : Core) (id : Nat) : Option Flight := k.flights.find? fun f => decide (f.id = id)
/-- Replace an operation in flight. -/
def Core.setFlight (k : Core) (f : Flight) : Core := { k with flights := k.flights.map fun g => if g.id = f.id then f else g }

/-- LOAD_DATA_RETURN: an operation with nothing still to come from another sled completes. -/
def execLoadDataReturn (sl : SledId) (c : CoreId) (i : Nat) (s : State) : Host.Outcome State Fault Refusal :=
  .next (if (s.sled sl).ended then s
    else match (s.core sl c).flight i with
      | some f => if f.asks = [] then s.onCore sl c fun k => k.deliver f else s
      | none => s)

/-! ### Stores -/

/-- A store to `n` bytes of this sled reaches the TAIL word of a queue that its Gate watches (R71, R122). -/
def Sled.watchedTail (x : Ctx) (d : Sled) (off n : Nat) : Bool :=
  allTenants.any fun t => (List.range 32).any fun q => bit (d.r32 .tntQCtl t q) 0 &&
    match (d.walk x t ((d.r64 .tntQHdr t q).toNat + 8)).2 with
    | .leaf l => (match d.target x l.pa with | .mem o => decide (off < o + 4 ∧ o < off + n) | _ => false)
    | .fail _ => false

/-- An access to another sled is still to be answered. -/
def Core.remotePending (k : Core) : Bool := k.flights.any fun f => decide (f.asks ≠ [])

/-- An access to a piece reaches the TAIL word of a queue that the Gate of its sled watches (R71, R122). -/
def State.tailAt (s : State) (sl : SledId) (p : Piece) : Bool :=
  match (s.sled sl).target (s.ctx sl) p.pa with
  | .mem off => (s.sled sl).watchedTail (s.ctx sl) off p.len
  | .farMem dst off => (s.sled dst).watchedTail (s.ctx dst) off p.len
  | _ => false

/-- Store one piece of `bs`; a Mirror tenant's stores to other sleds are performed by the lease holder only (R391). -/
def State.storePiece (sl : SledId) (c : CoreId) (bs : List Byte) (r : State × Flight) (p : Piece) : State × Flight :=
  let s := r.1
  let f := r.2
  let x : Ctx := s.ctx sl
  let t := (s.core sl c).tenant
  let part := (bs.drop p.pos).take p.len
  let ask := fun (dst : SledId) =>
    if (s.sled sl).mirror t && !(s.sled sl).hasLease then (s, f)
    else (s.send sl c f.id dst (8 * p.len) (.wr (p.pa % 2 ^ 47) part), { f with asks := f.asks ++ [(p.pos, BitVec.ofNat 64 p.va)], remote := true })
  match (s.sled sl).target x p.pa with
  | .mem off => (s.setSled sl (((s.sled sl).tallyMiss t.val off p.len).coWrite x off part), f)
  | .device off => ((s.cfgStore (.core sl c) (.sled sl) off p.len (ofBytes 64 part)).1, f)
  | .farMem dst _ => ask dst
  | .farDevice dst _ => ask dst
  | .hole => (s, f)

/-- A store that passed its checks. A posted store to another sled stays in flight until its WR_ACK (R208). -/
def State.startStore (s : State) (sl : SledId) (c : CoreId) (bs : List Byte) (ps : List Piece) : XOut :=
  if s.accessWaits sl c ps || ((s.core sl c).remotePending && ps.any (s.tailAt sl)) then .wait
  else
    let r := ps.foldl (State.storePiece sl c bs) (s, { (default : Flight) with id := (s.core sl c).nextId, issued := s.now })
    .next (if r.2.asks = [] then r.1 else r.1.fly sl c r.2)

/-- Check the spans of a store and perform it: nothing is written when any active span faults (R135). -/
def State.storeSpans (s : State) (sl : SledId) (c : CoreId) (bs : List Byte) (align : Nat) (dev : Option Nat) (spans : List (Nat × Nat × Nat)) : XOut :=
  if spans.isEmpty then .next s
  else
    let p := (s.sled sl).plan (s.ctx sl) c .store align dev spans
    let s := s.setSled sl p.1
    match p.2 with
    | .inr e => .fault s e
    | .inl ps => s.startStore sl c bs ps

/-! ### Atomics (R153, Table 5.9) -/

/-- The new value of an atomic of `w` bits; none where nothing is written. -/
def amoNew (op : AmoOp) (w : Nat) (uns : Bool) (old b c : Nat) : Option Nat :=
  match op with
  | .swap => some b
  | .add => some ((old + b) % 2 ^ w)
  | .and => some (old &&& b)
  | .or => some (old ||| b)
  | .xor => some (old ^^^ b)
  | .min => some (if ival w uns b < ival w uns old then b else old)
  | .max => some (if ival w uns old < ival w uns b then b else old)
  | .cas => if old = b then some c else none

/-- Perform an atomic on a sled's own memory: the sled, the old value, and whether the word is uncorrectable, which is counted with its PA and left as it is (R153, R203). -/
def Sled.amoAt (x : Ctx) (d : Sled) (op : AmoOp) (off size : Nat) (uns : Bool) (b c : Word64) : Sled × Word64 × Bool :=
  let held := (mget d.cache (off / 64) : Option Line).isSome
  let r := d.coRead x off size
  let old := bytesNat r.2.1
  let m := 2 ^ (8 * size)
  if r.2.2.any id then (if held then (r.1.bump64 .mmuUeCount).w64 .mmuUePa (BitVec.ofNat 64 (2 ^ 47 * x.sl.val + off / 8 * 8)) else r.1, BitVec.ofNat 64 old, true)
  else match amoNew op (8 * size) uns old (b.toNat % m) (c.toNat % m) with
    | some v => (r.1.coWrite x off (toBytes (BitVec.ofNat 64 v) size), BitVec.ofNat 64 old, false)
    | none => (r.1, BitVec.ofNat 64 old, false)

/-- An atomic that passed its checks: performed at once on this sled, or sent to the sled that holds the word. -/
def State.startAmo (s : State) (sl : SledId) (c : CoreId) (op : AmoOp) (f : Flight) (uns : Bool) (b cc : Word64) (p : Piece) : XOut :=
  let x : Ctx := s.ctx sl
  let k := s.core sl c
  let d := s.sled sl
  let va := BitVec.ofNat 64 p.va
  let f := { f with id := k.nextId, issued := s.now }
  if s.accessWaits sl c [p] || (k.remotePending && s.tailAt sl p) then .wait
  else match d.target x p.pa with
    | .mem off =>
      let r := (d.tallyMiss k.tenant off p.len).amoAt x op off p.len uns b cc
      .next ((s.setSled sl r.1).fly sl c (f.lay 0 va (toBytes r.2.1 p.len) [r.2.2]))
    | .farMem dst off =>
      if d.mirror k.tenant && !d.hasLease then
        .next ((s.setSled sl d.stepFree).fly sl c (f.lay 0 va (toBytes (Config.freeWord sl d.freeCtr) p.len) []))
      else
        .next ((s.send sl c f.id dst (16 * p.len) (.amo op off p.len uns b cc va)).fly sl c { f with asks := [(0, va)], remote := true })
    | _ => .wait

end Sys2Proof.Machine
end

