-- ==== Sys2Proof/Machine/Branch.lean ====
section
/-! DEFINITION. Branches and calls (Table 5.7, R149, R150), and the system instructions (Table 5.16, R126, R131, R173, R174). -/
namespace Sys2Proof.Machine

/-! ### Branches -/

/-- Go to a target: a misaligned one raises ALIGN and the branch has no effect (R128, R150). -/
def branchTo (s : State) (target : Word64) : XOut :=
  if target.toNat % 16 ≠ 0 then .trap s 6 target false else .jump s target

/-- A branch taken when `cond` holds of the core. -/
def State.branch (sl : SledId) (c : CoreId) (cond : Core → IWord → Bool) (target : Core → IWord → Word64) (s : State) (i : IWord) : XOut :=
  let k := s.core sl c
  if cond k i then branchTo s (target k i) else .next s

/-- A call: sD takes PC + 16 after sA is read (R184). -/
def State.call (sl : SledId) (c : CoreId) (target : Core → IWord → Word64) (s : State) (i : IWord) : XOut :=
  let k := s.core sl c
  let t := target k i
  if t.toNat % 16 ≠ 0 then .trap s 6 t false else .jump (s.onCore sl c fun k => k.putS (iD i) (k.pc + 16)) t

def targetImm (_ : Core) (i : IWord) : Word64 := iImm i
/-- The target wraps past 2^64 (R183). -/
def targetReg (k : Core) (i : IWord) : Word64 := k.getS (iA i) + iImm i
/-- sA < sB, signed unless U. -/
def lessAB (k : Core) (i : IWord) : Bool :=
  decide (ival 64 (iU i) (k.getS (iA i)).toNat < ival 64 (iU i) (k.getS (iB i)).toNat)

def execBr (sl : SledId) (c : CoreId) (s : State) : Host.Outcome State Fault Refusal := .next (s.xehal sl c .br (State.branch sl c (fun _ _ => true) targetImm))
def execBrr (sl : SledId) (c : CoreId) (s : State) : Host.Outcome State Fault Refusal := .next (s.xehal sl c .brr (State.branch sl c (fun _ _ => true) targetReg))
def execCall (sl : SledId) (c : CoreId) (s : State) : Host.Outcome State Fault Refusal := .next (s.xehal sl c .call (State.call sl c targetImm))
def execCallr (sl : SledId) (c : CoreId) (s : State) : Host.Outcome State Fault Refusal := .next (s.xehal sl c .callr (State.call sl c targetReg))
def execBeq (sl : SledId) (c : CoreId) (s : State) : Host.Outcome State Fault Refusal :=
  .next (s.xehal sl c .beq (State.branch sl c (fun k i => decide (k.getS (iA i) = k.getS (iB i))) targetImm))
def execBne (sl : SledId) (c : CoreId) (s : State) : Host.Outcome State Fault Refusal :=
  .next (s.xehal sl c .bne (State.branch sl c (fun k i => decide (k.getS (iA i) ≠ k.getS (iB i))) targetImm))
def execBlt (sl : SledId) (c : CoreId) (s : State) : Host.Outcome State Fault Refusal := .next (s.xehal sl c .blt (State.branch sl c lessAB targetImm))
def execBge (sl : SledId) (c : CoreId) (s : State) : Host.Outcome State Fault Refusal := .next (s.xehal sl c .bge (State.branch sl c (fun k i => !lessAB k i) targetImm))
def execBany (sl : SledId) (c : CoreId) (s : State) : Host.Outcome State Fault Refusal :=
  .next (s.xehal sl c .bany (State.branch sl c (fun k i => decide (k.getP (iA i) ≠ 0)) targetImm))
def execBall (sl : SledId) (c : CoreId) (s : State) : Host.Outcome State Fault Refusal :=
  .next (s.xehal sl c .ball (State.branch sl c (fun k i => decide (k.getP (iA i) = BitVec.allOnes 64)) targetImm))

/-! ### System -/

/-- Read a control register (Table 4.9). -/
def Sled.crRead (x : Ctx) (d : Sled) (c : CoreId) (n : Nat) : Word64 :=
  let k := d.core c
  match n with
  | 0x000 => k.state | 0x001 => k.tvec | 0x002 => k.epc | 0x003 => k.ecause
  | 0x004 => k.eaddr | 0x005 => k.estate | 0x006 => k.kscratch0 | 0x007 => k.kscratch1
  | 0x010 => k.fpcsr | 0x011 => k.srseed | 0x012 => k.srcount
  | 0x020 => BitVec.ofNat 64 (x.sl.val * 96 + c.val)
  | 0x021 => BitVec.ofNat 64 k.tenant.val
  | 0x022 => BitVec.ofNat 64 (d.clock x - k.clkBase)
  | 0x023 => d.time x
  | 0x024 => d.count
  | _ => 0

/-- Write a control register: RSV bits are ignored (R174, Tables 4.9 to 4.11). -/
def Core.crWrite (k : Core) (n : Nat) (v : Word64) : Core :=
  match n with
  | 0x000 => { k with state := v &&& 0x3F }
  | 0x001 => { k with tvec := v &&& ~~~0x1FF#64 }
  | 0x002 => { k with epc := v }
  | 0x003 => { k with ecause := v &&& 0xFFFF }
  | 0x004 => { k with eaddr := v }
  | 0x005 => { k with estate := v &&& 0x3F }
  | 0x006 => { k with kscratch0 := v }
  | 0x007 => { k with kscratch1 := v }
  | 0x010 => { k with fpcsr := v &&& 0x1F }
  | 0x011 => { k with srseed := v }
  | 0x012 => { k with srcount := v }
  | _ => k

def execNop (sl : SledId) (c : CoreId) (s : State) : Host.Outcome State Fault Refusal := .next (s.xehal sl c .nop fun s _ => .next s)
def execCrrd (sl : SledId) (c : CoreId) (s : State) : Host.Outcome State Fault Refusal :=
  .next (s.xehal sl c .crrd fun s i => .next (s.onCore sl c fun k => k.putS (iD i) ((s.sled sl).crRead (s.ctx sl) c (iImm i).toNat)))
def execCrwr (sl : SledId) (c : CoreId) (s : State) : Host.Outcome State Fault Refusal :=
  .next (s.xehal sl c .crwr fun s i => .next (s.onCore sl c fun k => k.crWrite (iImm i).toNat (k.getS (iA i))))
/-- TRAP: cause 0x20, EADDR is IMM, EPC after it (R125, R173). -/
def execTrap (sl : SledId) (c : CoreId) (s : State) : Host.Outcome State Fault Refusal := .next (s.xehal sl c .trap fun s i => .trap s 0x20 (iImm i) true)
/-- BREAK: cause 0x21. -/
def execBrk (sl : SledId) (c : CoreId) (s : State) : Host.Outcome State Fault Refusal := .next (s.xehal sl c .brk fun s i => .trap s 0x21 (iImm i) true)

/-- The return from an exception (R126): a misaligned EPC raises ALIGN and changes neither STATE nor PC. -/
def State.tret (sl : SledId) (c : CoreId) (s : State) (_ : IWord) : XOut :=
  let k := s.core sl c
  if k.epc.toNat % 16 ≠ 0 then .trap s 6 k.epc false
  else .jump (s.setSled sl (((s.sled sl).onCore c fun k => { k with state := k.estate &&& 0x3F }).syncText (s.ctx sl) c)) k.epc

def execTret (sl : SledId) (c : CoreId) (s : State) : Host.Outcome State Fault Refusal := .next (s.xehal sl c .tret (State.tret sl c))

end Sys2Proof.Machine
end

