-- ==== Sys2Proof/Machine/LoadStore.lean ====
section
/-! DEFINITION. Scalar loads and stores (Table 5.8), atomics (Table 5.9), wide loads and stores (Table 5.10), and tile loads and stores (Table 5.12). -/
namespace Sys2Proof.Machine

/-! ### Scalar -/

/-- sA + IMM, with sB for the indexed forms, modulo 2^64. -/
def Core.address (k : Core) (i : IWord) (indexed : Bool) : Nat :=
  (k.getS (iA i) + iImm i + if indexed then k.getS (iB i) else 0).toNat

/-- The destination of a scalar load; `sz` discards the data (R134). -/
def dstS (n : Nat) : Dst := if n = 63 then .none else .s n

/-- What a Device page raises for a scalar access of `size` bytes: ALIGN unless it is 4 or 8 (R5). -/
def scalarDev (size : Nat) : Option Nat := if size = 4 ∨ size = 8 then none else some 6

/-- A scalar load (R151). -/
def State.scalarLoad (sl : SledId) (c : CoreId) (indexed : Bool) (s : State) (i : IWord) : XOut :=
  let size := tWidth (iT i) / 8
  let f : Flight := { dst := dstS (iD i), size := size, signed := decide (iT i < 3) && !iU i }
  s.loadSpans sl c f size (scalarDev size) [((s.core sl c).address i indexed, 0, size)]

/-- A scalar store: sB, or sC for the indexed form. -/
def State.scalarStore (sl : SledId) (c : CoreId) (indexed : Bool) (s : State) (i : IWord) : XOut :=
  let k := s.core sl c
  let size := tWidth (iT i) / 8
  s.storeSpans sl c (toBytes (k.getS (if indexed then iC i else iB i)) size) size (scalarDev size) [(k.address i indexed, 0, size)]

/-- PREF brings the line of its address into the caches that CH allows, which with CH = 2 is none; it raises nothing and is dropped where it could not load (R152, R207). -/
def State.prefetch (sl : SledId) (c : CoreId) (s : State) (i : IWord) : XOut :=
  let x : Ctx := s.ctx sl
  let k := s.core sl c
  if (k.poison .s (iA i)).isSome || decide (iCh i = 2) then .next s
  else
    let r := (s.sled sl).translate x k.tenant (bit k.state 0) .load (k.address i false)
    match r.2 with
    | .fault _ => .next (s.setSled sl r.1)
    | .ok pa =>
      match r.1.target x pa with
      | .mem off => if r.1.converting off then .wait else .next (s.setSled sl ((r.1.tallyMiss k.tenant off 1).load x (off / 64)))
      | _ => .next (s.setSled sl r.1)

def execLd (sl : SledId) (c : CoreId) (s : State) : Host.Outcome State Fault Refusal := .next (s.xehal sl c .ld (State.scalarLoad sl c false))
def execLdx (sl : SledId) (c : CoreId) (s : State) : Host.Outcome State Fault Refusal := .next (s.xehal sl c .ldx (State.scalarLoad sl c true))
def execSt (sl : SledId) (c : CoreId) (s : State) : Host.Outcome State Fault Refusal := .next (s.xehal sl c .st (State.scalarStore sl c false))
def execStx (sl : SledId) (c : CoreId) (s : State) : Host.Outcome State Fault Refusal := .next (s.xehal sl c .stx (State.scalarStore sl c true))
def execPref (sl : SledId) (c : CoreId) (s : State) : Host.Outcome State Fault Refusal := .next (s.xehal sl c .pref (State.prefetch sl c))

/-! ### Atomics -/

/-- An atomic at [sA + IMM]: it is checked as a store, and a Device page raises PERM (R153). -/
def State.atomic (sl : SledId) (c : CoreId) (op : AmoOp) (s : State) (i : IWord) : XOut :=
  let k := s.core sl c
  let size := tWidth (iT i) / 8
  let f : Flight := { dst := dstS (iD i), size := size, signed := !iU i }
  let p := (s.sled sl).plan (s.ctx sl) c .store size (some 2) [(k.address i false, 0, size)]
  let s := s.setSled sl p.1
  match p.2 with
  | .inr e => .fault s e
  | .inl ps => match ps with
    | q :: _ => s.startAmo sl c op f (iU i) (k.getS (iB i)) (k.getS (iC i)) q
    | [] => .next s

def execAmoswap (sl : SledId) (c : CoreId) (s : State) : Host.Outcome State Fault Refusal := .next (s.xehal sl c .amoswap (State.atomic sl c .swap))
def execAmoadd (sl : SledId) (c : CoreId) (s : State) : Host.Outcome State Fault Refusal := .next (s.xehal sl c .amoadd (State.atomic sl c .add))
def execAmoand (sl : SledId) (c : CoreId) (s : State) : Host.Outcome State Fault Refusal := .next (s.xehal sl c .amoand (State.atomic sl c .and))
def execAmoor (sl : SledId) (c : CoreId) (s : State) : Host.Outcome State Fault Refusal := .next (s.xehal sl c .amoor (State.atomic sl c .or))
def execAmoxor (sl : SledId) (c : CoreId) (s : State) : Host.Outcome State Fault Refusal := .next (s.xehal sl c .amoxor (State.atomic sl c .xor))
def execAmomin (sl : SledId) (c : CoreId) (s : State) : Host.Outcome State Fault Refusal := .next (s.xehal sl c .amomin (State.atomic sl c .min))
def execAmomax (sl : SledId) (c : CoreId) (s : State) : Host.Outcome State Fault Refusal := .next (s.xehal sl c .amomax (State.atomic sl c .max))
def execAmocas (sl : SledId) (c : CoreId) (s : State) : Host.Outcome State Fault Refusal := .next (s.xehal sl c .amocas (State.atomic sl c .cas))

/-! ### Wide and tile accesses (R154, R155, R160) -/

/-- The spans (VA, position, length) of `n` parts of `size` bytes from a base: runs of active parts. -/
def runSpans (base size n : Nat) (on : Nat → Bool) : List (Nat × Nat × Nat) :=
  ((List.range n).foldl (fun (l : List (Nat × Nat × Nat)) e =>
    if on e then
      match l with
      | (a, p, m) :: l' => if p + m = e * size then (a, p, m + size) :: l' else ((base + e * size) % 2 ^ 64, e * size, size) :: l
      | [] => [((base + e * size) % 2 ^ 64, e * size, size)]
    else l) []).reverse

/-- The spans of a gather or scatter in element order: sA + IMM + index x element size, the index signed (R154). -/
def Core.indexSpans (k : Core) (i : IWord) : List (Nat × Nat × Nat) :=
  let w := tWidth (iT i)
  let base : Int := (k.address i false : Nat)
  ((List.range (tCount (iT i))).filter fun e => elemOn (k.pred i) w e).map fun e =>
    (wrapInt 64 (base + sval w (elt w (k.getW (iB i)) e) * (w / 8 : Nat)), e * (w / 8), w / 8)

/-- The same outcome, counting `n` lanes where the instruction issues. -/
def XOut.lanes (o : XOut) (sl : SledId) (t : TenantId) (n : Nat) : XOut :=
  match o with
  | .next s => .next (s.tally sl t 7 n)
  | o => o

/-- A wide load: the inactive lanes keep their old value. -/
def State.wideLoad (sl : SledId) (c : CoreId) (gather : Bool) (s : State) (i : IWord) : XOut :=
  let k := s.core sl c
  let w := tWidth (iT i)
  let on := fun e => elemOn (k.pred i) w e
  let spans := if gather then k.indexSpans i else runSpans (k.address i false) (w / 8) (tCount (iT i)) on
  let f : Flight := { dst := .w (iD i), size := 256, data := (k.getW (iD i)).zeroExtend 8192, whole := (List.range (tCount (iT i))).all on }
  (s.loadSpans sl c f (w / 8) (some 6) spans).lanes sl k.tenant (activeLanes (k.pred i) w (tCount (iT i)))

/-- A wide store: wB, or wC for a scatter, whose highest element wins where elements overlap (R155). -/
def State.wideStore (sl : SledId) (c : CoreId) (scatter : Bool) (s : State) (i : IWord) : XOut :=
  let k := s.core sl c
  let w := tWidth (iT i)
  let spans := if scatter then k.indexSpans i else runSpans (k.address i false) (w / 8) (tCount (iT i)) fun e => elemOn (k.pred i) w e
  (s.storeSpans sl c (toBytes (k.getW (if scatter then iC i else iB i)) 256) (w / 8) (some 6) spans).lanes sl k.tenant
    (activeLanes (k.pred i) w (tCount (iT i)))

/-- A tile load, by rows (R160). -/
def State.tileLoad (sl : SledId) (c : CoreId) (s : State) (i : IWord) : XOut :=
  let k := s.core sl c
  let f : Flight := { dst := .t (iD i), size := 1024, data := k.getT (iD i), whole := decide (k.rows i = 16) }
  (s.loadSpans sl c f 4 (some 6) (runSpans (k.address i false) 64 16 (k.rowOn i))).lanes sl k.tenant (16 * k.rows i)

/-- A tile store, by rows. -/
def State.tileStore (sl : SledId) (c : CoreId) (s : State) (i : IWord) : XOut :=
  let k := s.core sl c
  (s.storeSpans sl c (toBytes (k.getT (iB i)) 1024) 4 (some 6) (runSpans (k.address i false) 64 16 (k.rowOn i))).lanes sl k.tenant (16 * k.rows i)

def execWld (sl : SledId) (c : CoreId) (s : State) : Host.Outcome State Fault Refusal := .next (s.xehal sl c .wld (State.wideLoad sl c false))
def execWldx (sl : SledId) (c : CoreId) (s : State) : Host.Outcome State Fault Refusal := .next (s.xehal sl c .wldx (State.wideLoad sl c true))
def execWst (sl : SledId) (c : CoreId) (s : State) : Host.Outcome State Fault Refusal := .next (s.xehal sl c .wst (State.wideStore sl c false))
def execWstx (sl : SledId) (c : CoreId) (s : State) : Host.Outcome State Fault Refusal := .next (s.xehal sl c .wstx (State.wideStore sl c true))
def execTld (sl : SledId) (c : CoreId) (s : State) : Host.Outcome State Fault Refusal := .next (s.xehal sl c .tld (State.tileLoad sl c))
def execTst (sl : SledId) (c : CoreId) (s : State) : Host.Outcome State Fault Refusal := .next (s.xehal sl c .tst (State.tileStore sl c))

end Sys2Proof.Machine
end

