-- ==== Sys2Proof/Machine/Control.lean ====
section
/-! DEFINITION. Cache and ordering instructions (R161, R162), scheduling and submission instructions (Tables 5.13 to 5.15), and the scheduler's own
commands: SCHED pre-emption (R129), dispatch (R234, R235) and events (R239). -/
namespace Sys2Proof.Machine

/-! ### Ordering -/

/-- FENCE: every access of the core, local ones having been performed at issue, is performed everywhere (R122). -/
def State.fenceOp (sl : SledId) (c : CoreId) (s : State) (_ : IWord) : XOut := if (s.core sl c).remotePending then .wait else .next s
/-- IFENCE waits as FENCE does and synchronizes (R124). -/
def State.ifenceOp (sl : SledId) (c : CoreId) (s : State) (_ : IWord) : XOut :=
  if (s.core sl c).remotePending then .wait else .next (s.setSled sl ((s.sled sl).syncText (s.ctx sl) c))

def execFence (sl : SledId) (c : CoreId) (s : State) : Host.Outcome State Fault Refusal := .next (s.xehal sl c .fence (State.fenceOp sl c))
def execIfence (sl : SledId) (c : CoreId) (s : State) : Host.Outcome State Fault Refusal := .next (s.xehal sl c .ifence (State.ifenceOp sl c))

/-- Clean or discard the cached lines that meet [lo, hi) of the sled's memory: a line only partly in the range is written back before it is
discarded, and stays where that must wait (R161, R390). -/
def Sled.cacheRange (x : Ctx) (d : Sled) (discard : Bool) (lo hi : Nat) : Sled :=
  ((d.cache.filter fun e => decide (lo < 64 * e.1 + 64 ∧ 64 * e.1 < hi)).map (·.1)).foldl (fun (d : Sled) ln =>
    if !discard then d.flushLine x ln
    else if lo ≤ 64 * ln ∧ 64 * ln + 64 ≤ hi then d.dropLine ln
    else
      let d := d.flushLine x ln
      match (mget d.cache ln : Option Line) with
      | some l => if l.dirty then d else d.dropLine ln
      | none => d) d

/-- A line that meets [lo, hi) is still to be written back: a dirty one, which for a discard lies only partly in the range. -/
def Sled.stillDirty (d : Sled) (discard : Bool) (lo hi : Nat) : Bool :=
  d.cache.any fun e => decide (lo < 64 * e.1 + 64 ∧ 64 * e.1 < hi) && e.2.any fun l => l.dirty && !(discard && decide (lo ≤ 64 * e.1 ∧ 64 * e.1 + 64 ≤ hi))

/-- CFLUSH and CINVAL page by page from a VA up to an end: the sled, and whether some line has still to wait for its write-back. A page without a translation, on
another sled or in config space is skipped (R162, R207). -/
def Sled.cachePages (x : Ctx) (t : TenantId) (discard : Bool) (stop : Nat) : Nat → Nat → Sled × Bool → Sled × Bool
  | 0, _, r => r
  | fuel + 1, va, r =>
    if stop ≤ va then r
    else
      let w := r.1.walk x t va
      match w.2 with
      | .fail f =>
        if f.level = 0 then (w.1, r.2)
        else Sled.cachePages x t discard stop fuel ((va / 2 ^ levelShift f.level + 1) * 2 ^ levelShift f.level) (w.1, r.2)
      | .leaf l =>
        let next := min stop (2 ^ 16 * (va / 2 ^ 16 + 1))
        let q := match w.1.target x l.pa with
          | .mem off =>
            let d := w.1.cacheRange x discard off (off + (next - va))
            (d, r.2 || d.stillDirty discard off (off + (next - va)))
          | _ => (w.1, r.2)
        Sled.cachePages x t discard stop fuel next q

/-- CFLUSH and CINVAL over [sA, sA + sB); addresses at or above 2^55 are skipped. The instruction is one operation in flight. Where a line's write-back must wait (R389, R390)
it writes back what it can and has still to issue, so FENCE and every submission behind it wait too (R122, R162; log 126). -/
def State.cacheOp (sl : SledId) (c : CoreId) (discard : Bool) (s : State) (i : IWord) : XOut :=
  let k := s.core sl c
  let lo := (k.getS (iA i)).toNat
  let r := Sled.cachePages (s.ctx sl) k.tenant discard (min (2 ^ 55) (lo + (k.getS (iB i)).toNat)) (2 ^ 40) lo (s.sled sl, false)
  let s' := s.setSled sl r.1
  if r.2 then .part s' else .next (s'.fly sl c { (default : Flight) with id := k.nextId, issued := s.now })

def execCflush (sl : SledId) (c : CoreId) (s : State) : Host.Outcome State Fault Refusal := .next (s.xehal sl c .cflush (State.cacheOp sl c false))
def execCinval (sl : SledId) (c : CoreId) (s : State) : Host.Outcome State Fault Refusal := .next (s.xehal sl c .cinval (State.cacheOp sl c true))

/-! ### Scheduling (R164 to R168) -/

/-- Change the entry of the thread that a core runs, given its die and index. -/
def Sled.withThread (d : Sled) (c : CoreId) (f : Nat → Nat → Sled → Sled) : Sled :=
  match (d.core c).entry with
  | some e => f (dieOf c) e d
  | none => d

/-- Save the context of the running thread, PC after the instruction (R130). -/
def Sled.saveThread (x : Ctx) (d : Sled) (c : CoreId) : Sled :=
  d.withThread c fun die e d =>
    let d := d.onCore c fun k => { k with pc := k.pc + 16 }
    d.saveCtx x c (d.ent die e).ctx (d.core c).state

/-- The running thread stays off the ready lists in a state. -/
def Sled.rest (x : Ctx) (d : Sled) (c : CoreId) (st : ThreadState) : Sled :=
  d.withThread c fun die e d => ((d.setEnt die e { d.ent die e with st := st }).tcbState x die e).leaveCore c

/-- The pending-wake flag of the running thread (R166). -/
def Sled.wakePending (d : Sled) (c : CoreId) : Bool :=
  match (d.core c).entry with
  | some e => (d.ent (dieOf c) e).wake
  | none => false

/-- WAITWORK (R165, R166, R228): end, go on where a wake is pending, or park. -/
def State.waitwork (sl : SledId) (c : CoreId) (s : State) (i : IWord) : XOut :=
  let x : Ctx := s.ctx sl
  let d := (s.sled sl).onCore c fun k => { k with mask := some (BitVec.ofNat 8 (fld (iImm i) 7 0)) }
  if bit (iImm i) 8 && d.wakePending c then
    .next (s.setSled sl (d.withThread c fun die e d => d.setEnt die e { d.ent die e with wake := false }))
  else if (d.core c).flights ≠ [] then .wait
  else if bit (iImm i) 8 then .left (s.setSled sl ((d.saveThread x c).rest x c .parked))
  else .left (s.setSled sl (d.withThread c fun die e d => (d.endThread x die e 0).leaveCore c))

/-- YIELD (R167): the thread enters its list behind its equals. -/
def State.yieldOp (sl : SledId) (c : CoreId) (s : State) (_ : IWord) : XOut :=
  let x : Ctx := s.ctx sl
  if (s.core sl c).flights ≠ [] then .wait
  else .left (s.setSled sl ((s.sled sl).withThread c fun die e d => ((d.saveThread x c).leaveCore c).enlist x die e false))

/-- The work window of Bell count `n` has started (R51). -/
def Sled.workStarted (d : Sled) (n : Word64) : Bool := decide (n.toNat < d.count.toNat) || (decide (n = d.count) && d.bell.work)

/-- BELLWAIT (R51, R168): at once, or blocked with WAKE_AT written. -/
def State.bellwait (sl : SledId) (c : CoreId) (s : State) (i : IWord) : XOut :=
  let x : Ctx := s.ctx sl
  let k := s.core sl c
  let n := k.getS (iA i) + iImm i
  if (s.sled sl).workStarted n then .next s
  else if k.flights ≠ [] then .wait
  else
    let d := (s.sled sl).saveThread x c
    let d := d.withThread c fun die e d => (d.setEnt die e { d.ent die e with awaits := n }).tcbPut x (d.ent die e).tenant (d.ent die e).tcb 0x40 n
    .left (s.setSled sl (d.rest x c .blocked))

/-- The item of the running thread (R241). -/
def Sled.threadItem (d : Sled) (c : CoreId) : Nat :=
  match (d.core c).entry with
  | some e => (d.ent (dieOf c) e).item
  | none => 0

/-- The status code of a READY (Table 5.13). -/
def ReadyRes.status : ReadyRes → Nat
  | .refused => 1
  | .badArgs => 3
  | _ => 0

/-- READY (R166, R230, R246): older stores come first (R122), and a translation failure is its exception. -/
def State.readyOp (sl : SledId) (c : CoreId) (s : State) (i : IWord) : XOut :=
  let k := s.core sl c
  let d := s.sled sl
  if k.remotePending then .wait
  else
    let r := d.ready (s.ctx sl) k.tenant (k.getS (iA i)).toNat (d.threadItem c) false
    let s := s.setSled sl r.1
    match r.2 with
    | .fault f => .fault s f
    | res => .next (s.onCore sl c fun k => k.putS (iD i) (BitVec.ofNat 64 res.status))

def execWaitwork (sl : SledId) (c : CoreId) (s : State) : Host.Outcome State Fault Refusal := .next (s.xehal sl c .waitwork (State.waitwork sl c))
def execYield (sl : SledId) (c : CoreId) (s : State) : Host.Outcome State Fault Refusal := .next (s.xehal sl c .yield (State.yieldOp sl c))
def execBellwait (sl : SledId) (c : CoreId) (s : State) : Host.Outcome State Fault Refusal := .next (s.xehal sl c .bellwait (State.bellwait sl c))
def execReady (sl : SledId) (c : CoreId) (s : State) : Host.Outcome State Fault Refusal := .next (s.xehal sl c .ready (State.readyOp sl c))

/-! ### Submission (R163, R169 to R172, R518) -/

/-- A submission: it waits for older stores (R122) and writes its status to sD. -/
def State.submit (sl : SledId) (c : CoreId) (f : Ctx → Sled → Core → IWord → Sled × Nat) (s : State) (i : IWord) : XOut :=
  let k := s.core sl c
  if k.remotePending then .wait
  else
    let r := f (s.ctx sl) (s.sled sl) k i
    .next ((s.setSled sl r.1).onCore sl c fun k => k.putS (iD i) (BitVec.ofNat 64 r.2))

/-- TESUBMIT and PROBESUB. -/
def submitRays (rr : RingRegs) (c : CoreId) (x : Ctx) (d : Sled) (k : Core) (i : IWord) : Sled × Nat :=
  d.teSubmit x rr k.tenant (d.threadItem c) (fld (iImm i) 7 0) (fld (iImm i) 15 8) (k.getS (iA i)).toNat (k.getS (iB i)).toNat 4096
    (decide (fld (iImm i) 63 16 = 0))

/-- TERESUME: BAD_HANDLE comes before BAD_ARGS, which a nonzero IMM gives too (R177, R518). -/
def submitResume (x : Ctx) (d : Sled) (k : Core) (i : IWord) : Sled × Nat :=
  let r := d.teResume x k.tenant (k.getS (iA i)) (k.getS (iB i))
  if iImm i = 0 then r else if r.2 = stBadHandle then (d, stBadHandle) else (d, stBadArgs)

/-- DEPLAUNCH. -/
def submitLaunch (c : CoreId) (x : Ctx) (d : Sled) (k : Core) (i : IWord) : Sled × Nat :=
  let first := fld (iImm i) 8 0
  let count := fld (iImm i) 25 16
  let va := (k.getS (iA i)).toNat
  if count = 0 ∨ 512 < count ∨ 512 < first + count ∨ va % 64 ≠ 0 ∨ fld (iImm i) 15 9 ≠ 0 ∨ fld (iImm i) 63 26 ≠ 0 then (d, stBadArgs)
  else if !d.launchRoom first count then (d, stRefused)
  else (d.launchGo x k.tenant (d.threadItem c) va first count false, stAccepted)

def execTesubmit (sl : SledId) (c : CoreId) (s : State) : Host.Outcome State Fault Refusal := .next (s.xehal sl c .tesubmit (State.submit sl c (submitRays hitRing c)))
def execProbesub (sl : SledId) (c : CoreId) (s : State) : Host.Outcome State Fault Refusal := .next (s.xehal sl c .probesub (State.submit sl c (submitRays resRing c)))
def execTeresume (sl : SledId) (c : CoreId) (s : State) : Host.Outcome State Fault Refusal := .next (s.xehal sl c .teresume (State.submit sl c submitResume))
def execDeplaunch (sl : SledId) (c : CoreId) (s : State) : Host.Outcome State Fault Refusal := .next (s.xehal sl c .deplaunch (State.submit sl c (submitLaunch c)))

/-! ### The scheduler's commands -/

/-- SCHED_INTERRUPT: SCHED is taken between instructions once nothing is in flight and SM is 0 (R129, R238). -/
def execSchedInterrupt (sl : SledId) (c : CoreId) (s : State) : Host.Outcome State Fault Refusal :=
  let d := s.sled sl
  let k := d.core c
  .next (if d.ended || k.sched.isNone || k.entry.isNone || k.halted || decide (k.flights ≠ []) || bit k.state 2 then s
    else s.setSled sl (d.preempt (s.ctx sl) c false))

/-- SM_DEFER_TIMEOUT: 2 µs after its request SCHED is taken under SM, and the saved STATE says so (R129, R255). -/
def execSmDeferTimeout (sl : SledId) (c : CoreId) (s : State) : Host.Outcome State Fault Refusal :=
  let d := s.sled sl
  let k := d.core c
  .next (match k.sched with
    | none => s
    | some q =>
      if d.ended || k.entry.isNone || k.halted || decide (k.flights ≠ []) || !bit k.state 2 then s
      else
        let s := s.upTo (q.since + 2000)
        s.setSled sl ((s.sled sl).preempt (s.ctx sl) c true))

/-- The thread an idle core would take: the one it is reserved for while that may run (R237), else the first of its search (R234). -/
def Sled.nextFor (d : Sled) (c : CoreId) : Option Nat :=
  let die := dieOf c
  if d.ended || !d.idleCore c || !bit (d.r32 .schCtl die) 0 then none
  else match (d.core c).reserved with
    | some e => if (d.ent die e).st = .ready ∧ d.eligible (d.ent die e) then some e else d.firstFor c
    | none => d.firstFor c

/-- DISPATCH: the core takes its thread unless a lower-numbered idle core of its die would take the same one (R234). -/
def execDispatch (sl : SledId) (c : CoreId) (s : State) : Host.Outcome State Fault Refusal :=
  let d := s.sled sl
  .next (match d.nextFor c with
    | none => s
    | some e =>
      let other := fun (o : CoreId) => decide (dieOf o = dieOf c ∧ o ≠ c) && decide (d.nextFor o = some e)
      let taken := allCores.any fun o => other o
        && (((d.core o).reserved = some e : Bool) || (!((d.core c).reserved = some e : Bool) && decide (o.val < c.val)))
      if taken then s else s.setSled sl (d.dispatch (s.ctx sl) c e))

/-- SCHED_EVENT: a unit posts an event of a kind to a handle for a tenant (R239, R240). -/
def execSchedEvent (sl : SledId) (t : TenantId) (kind : Fin 8) (handle : Word32) (s : State) : Host.Outcome State Fault Refusal :=
  .next (s.onSled sl fun x d => d.event x t kind.val handle)

end Sys2Proof.Machine
end

