-- ==== Sys2Proof/Machine/Remote.lean ====
section
/-! DEFINITION. The frames of accesses to other sleds (R208, R209, R225, R383, R391, Table 12.3): a request is performed at its target and answered, and the answer
completes the operation at the core that asked. -/
namespace Sys2Proof.Machine

/-- The bytes a request names at its target: offset and length; none for an answer. -/
def Payload.range : Payload → Option (Nat × Nat)
  | .rdReq off len _ _ => some (off, len)
  | .wr off bs => some (off, bs.length)
  | .amo _ off size _ _ _ _ => some (off, size)
  | _ => none

/-- Two requests of one core to overlapping bytes of one sled keep their order (R208). -/
def Frame.before (a b : Frame) : Bool :=
  decide (a.src = b.src ∧ a.dst = b.dst ∧ a.core = b.core) && match a.body.range, b.body.range with
    | some p, some q => decide (p.1 < q.1 + q.2 ∧ q.1 < p.1 + p.2)
    | _, _ => false

/-- The place of the oldest frame of a kind between two sleds: frames of one type arrive in order (R383), and a request waits for older ones of
its core to the same bytes. -/
def State.frameAt (s : State) (src dst : SledId) (kind : Payload → Bool) : Option (Nat × Frame) :=
  match s.fabric.findIdx? fun f => decide (f.src = src ∧ f.dst = dst) && kind f.body with
  | none => none
  | some i => match s.fabric[i]? with
    | none => none
    | some f => if (s.fabric.take i).any fun g => g.before f then none else some (i, f)

/-- The frame is taken off the fabric. -/
def State.takeFrame (s : State) (i : Nat) : State := { s with fabric := s.fabric.eraseIdx i }

/-- Answer a request. -/
def State.answerFrame (s : State) (f : Frame) (body : Payload) : State :=
  { s with fabric := s.fabric ++ [⟨f.dst, f.src, f.core, f.tenant, f.id, body⟩] }

/-- The DRAM bits that an access moves at its target. -/
def State.missAt (s : State) (at' : SledId) (t : TenantId) (off n : Nat) : State := s.setSled at' ((s.sled at').tallyMiss t.val off n)

/-- The oldest request of a kind that a unit of one sled has sent to another, with its place. -/
def State.postAt (s : State) (src dst : SledId) (kind : Payload → Bool) : Option (Nat × Post) :=
  match (s.sled src).posts.findIdx? fun p => decide (p.dst = dst) && kind p.body with
  | none => none
  | some i => ((s.sled src).posts[i]?).map fun p => (i, p)

/-- A unit's request is performed at its target: the load that found its data when it was sent, or the posted store; one that cannot be served fails (R209). It needs no
answer, and it waits for a conversion (R201). -/
def State.servePost (s : State) (src dst : SledId) (kind : Payload → Bool) : State :=
  match s.postAt src dst kind with
  | none => s
  | some (i, p) =>
    let t := s.onSled src fun _ d => { d with posts := d.posts.eraseIdx i }
    match p.body with
    | .rdReq off len _ _ =>
      if !t.bothUp src dst || !t.answers dst off then t
      else if (t.sled (t.server dst off)).converting off then s
      else ((t.missAt (t.server dst off) p.tenant off len).serveLoad dst off len).1
    | .wr off bs =>
      if !t.bothUp src dst || !t.takesStore dst off then t.remoteFail src
      else if (t.sled dst).converting off then s
      else (t.missAt dst p.tenant off bs.length).onSled dst fun x d => d.coWrite x off bs
    | _ => t

/-- RD_REQ: the load of a core is performed, or with none a unit's; one that cannot be served is answered with a failure (R209). -/
def execRdReq (src dst : SledId) (s : State) : Host.Outcome State Fault Refusal :=
  .next (match s.frameAt src dst fun b => match b with | .rdReq _ _ _ _ => true | _ => false with
    | none => s.servePost src dst fun b => match b with | .rdReq _ _ _ _ => true | _ => false
    | some (i, f) => match f.body with
      | .rdReq off len pos va =>
        let t := s.takeFrame i
        let lost := t.answerFrame f (.rdRsp pos va [] [] true)
        if !t.bothUp src dst then lost
        else if devBase ≤ off then
          let r := t.cfgLoad (.core src f.core) (.sled dst) (off - devBase) len
          match r.2 with
          | .val v => r.1.answerFrame f (.rdRsp pos va (toBytes v len) [] false)
          | _ => lost
        else if !t.answers dst off || !t.inService (t.server dst off) then lost
        else if (t.sled dst).converting off then s
        else
          let r := (t.missAt (t.server dst off) f.tenant off len).serveLoad dst off len
          r.1.answerFrame f (.rdRsp pos va r.2.1 r.2.2 false)
      | _ => s)

/-- WR: the store of a core is performed, or with none a unit's, or discarded where it fails. -/
def execWr (src dst : SledId) (s : State) : Host.Outcome State Fault Refusal :=
  .next (match s.frameAt src dst fun b => match b with | .wr _ _ => true | _ => false with
    | none => s.servePost src dst fun b => match b with | .wr _ _ => true | _ => false
    | some (i, f) => match f.body with
      | .wr off bs =>
        let t := s.takeFrame i
        if !t.bothUp src dst then t.answerFrame f (.wrAck true)
        else if devBase ≤ off then
          (t.cfgStore (.core src f.core) (.sled dst) (off - devBase) bs.length (ofBytes 64 bs) (some f.tenant)).1.answerFrame f (.wrAck false)
        else if !t.takesStore dst off then t.answerFrame f (.wrAck true)
        else if (t.sled dst).converting off then s
        else ((t.missAt dst f.tenant off bs.length).onSled dst fun x d => d.coWrite x off bs).answerFrame f (.wrAck false)
      | _ => s)

/-- AMO: the atomic is performed in one step (R225). -/
def execAmo (src dst : SledId) (s : State) : Host.Outcome State Fault Refusal :=
  .next (match s.frameAt src dst fun b => match b with | .amo _ _ _ _ _ _ _ => true | _ => false with
    | none => s
    | some (i, f) => match f.body with
      | .amo op off size uns b c va =>
        let t := s.takeFrame i
        if !t.bothUp src dst || !t.takesStore dst off then t.answerFrame f (.amoRsp 0 va false true)
        else if (t.sled dst).converting off then s
        else
          let r := ((t.missAt dst f.tenant off size).sled dst).amoAt (t.ctx dst) op off size uns b c
          (t.setSled dst r.1).answerFrame f (.amoRsp r.2.1 va r.2.2 false)
      | _ => s)

/-- A part of an operation is answered: the operation completes with its last part. -/
def Core.absorb (k : Core) (id : Nat) (g : Flight → Flight) : Core :=
  match k.flight id with
  | none => k
  | some f => if (g f).asks = [] then k.deliver (g f) else k.setFlight (g f)

/-- A failed part is counted on the sled that asked (R209). -/
def State.failCount (s : State) (sl : SledId) (failed : Bool) : State := if failed then s.remoteFail sl else s

/-- RD_RSP: data, or a failure that poisons the destination. -/
def execRdRsp (src dst : SledId) (s : State) : Host.Outcome State Fault Refusal :=
  .next (match s.frameAt src dst fun b => match b with | .rdRsp _ _ _ _ _ => true | _ => false with
    | none => s
    | some (i, f) => match f.body with
      | .rdRsp pos va bs bad failed =>
        ((s.takeFrame i).failCount dst failed).onCore dst f.core fun k => k.absorb f.id fun g =>
          let g := if failed then g.fail pos va else g.lay pos va bs bad
          { g with asks := g.asks.filter fun a => decide (a.1 ≠ pos) }
      | _ => s)

/-- WR_ACK. -/
def execWrAck (src dst : SledId) (s : State) : Host.Outcome State Fault Refusal :=
  .next (match s.frameAt src dst fun b => match b with | .wrAck _ => true | _ => false with
    | none => s
    | some (i, f) => match f.body with
      | .wrAck failed =>
        ((s.takeFrame i).failCount dst failed).onCore dst f.core fun k => k.absorb f.id fun g => { g with asks := g.asks.drop 1 }
      | _ => s)

/-- AMO_RSP: the old value; an uncorrectable word or a failure poisons the destination (R153, R209). -/
def execAmoRsp (src dst : SledId) (s : State) : Host.Outcome State Fault Refusal :=
  .next (match s.frameAt src dst fun b => match b with | .amoRsp _ _ _ _ => true | _ => false with
    | none => s
    | some (i, f) => match f.body with
      | .amoRsp old va bad failed =>
        ((s.takeFrame i).failCount dst failed).onCore dst f.core fun k => k.absorb f.id fun g =>
          let g := if failed then g.fail 0 va else g.lay 0 va (toBytes old g.size) [bad]
          { g with asks := [] }
      | _ => s)

/-- REMOTE_ACCESS_TIMEOUT: the parts of an operation that got no response within 100 µs fail (R209). -/
def execRemoteAccessTimeout (sl : SledId) (c : CoreId) (i : Nat) (s : State) : Host.Outcome State Fault Refusal :=
  .next (match (s.core sl c).flight i with
    | none => s
    | some f =>
      if f.asks = [] then s
      else
        let s := s.upTo (f.issued + 100000)
        let mine := fun (g : Frame) => decide (g.core = c ∧ g.id = i) && match g.body.range with | some _ => decide (g.src = sl) | none => decide (g.dst = sl)
        let s := { s with fabric := s.fabric.filter fun g => !mine g }
        let s := s.onSled sl fun _ d => d.bump32 .mmuRemoteFail 0 0 f.asks.length
        s.onCore sl c fun k => k.absorb i fun g => { g.asks.foldl (fun (g : Flight) a => g.fail a.1 a.2) g with asks := [] })

end Sys2Proof.Machine
end

