-- ==== Sys2Proof/Machine/Dispatch.lean ====
section
/-! DEFINITION. The meaning of every command, one arm each. -/
namespace Sys2Proof.Machine

def exec (i : Instr) (s : State) : Host.Outcome State Fault Refusal :=
  match i with
  | .cfgLowWordRead who n off => Sys2Proof.Machine.execCfgLowWordRead who n off s
  | .cfgHighWordRead who n off => Sys2Proof.Machine.execCfgHighWordRead who n off s
  | .cfgLowWordWrite who n off v => Sys2Proof.Machine.execCfgLowWordWrite who n off v s
  | .cfgHighWordWrite who n off v => Sys2Proof.Machine.execCfgHighWordWrite who n off v s
  | .cfgPairAccess64 who n off v => Sys2Proof.Machine.execCfgPairAccess64 who n off v s
  | .w1cWrite who n off v => Sys2Proof.Machine.execW1cWrite who n off v s
  | .registerWrite who n off width v => Sys2Proof.Machine.execRegisterWrite who n off width v s
  | .unassignedOffsetAccess who n off v => Sys2Proof.Machine.execUnassignedOffsetAccess who n off v s
  | .blockReset n b => Sys2Proof.Machine.execBlockReset n b s
  | .bellBoundary n => Sys2Proof.Machine.execBellBoundary n s
  | .settleStop sl => Sys2Proof.Machine.execSettleStop sl s
  | .flogFlush sl => Sys2Proof.Machine.execFlogFlush sl s
  | .ledgerCommit sl => Sys2Proof.Machine.execLedgerCommit sl s
  | .twinSettle sl => Sys2Proof.Machine.execTwinSettle sl s
  | .gateSettleAdmit sl => Sys2Proof.Machine.execGateSettleAdmit sl s
  | .settleStep5Force sl => Sys2Proof.Machine.execSettleStep5Force sl s
  | .workWindowOpen sl => Sys2Proof.Machine.execWorkWindowOpen sl s
  | .bellInEdge b => Sys2Proof.Machine.execBellInEdge b s
  | .bellLost b => Sys2Proof.Machine.execBellLost b s
  | .ptpMessageRx b m => Sys2Proof.Machine.execPtpMessageRx b m s
  | .ptpLost b => Sys2Proof.Machine.execPtpLost b s
  | .bellUnlock b => Sys2Proof.Machine.execBellUnlock b s
  | .bellMessage sl m => Sys2Proof.Machine.execBellMessage sl m s
  | .bellAbsentTimeout sl => Sys2Proof.Machine.execBellAbsentTimeout sl s
  | .belPeriodNextWrite who n v => Sys2Proof.Machine.execBelPeriodNextWrite who n v s
  | .belFracNextWrite who n v => Sys2Proof.Machine.execBelFracNextWrite who n v s
  | .rearmPtp who n => Sys2Proof.Machine.execRearmPtp who n s
  | .rearmIn who n => Sys2Proof.Machine.execRearmIn who n s
  | .belSrcEnWrite who n v => Sys2Proof.Machine.execBelSrcEnWrite who n v s
  | .belAlignWrite who n v => Sys2Proof.Machine.execBelAlignWrite who n v s
  | .belPtpWrite who n v => Sys2Proof.Machine.execBelPtpWrite who n v s
  | .tntCtlWrite who sl t v => Sys2Proof.Machine.execTntCtlWrite who sl t v s
  | .tntAllotWrite who sl t v => Sys2Proof.Machine.execTntAllotWrite who sl t v s
  | .tntFlogBaseWrite who sl t v => Sys2Proof.Machine.execTntFlogBaseWrite who sl t v s
  | .tntResetGo who sl t => Sys2Proof.Machine.execTntResetGo who sl t s
  | .tenantResetDone sl t => Sys2Proof.Machine.execTenantResetDone sl t s
  | .tntQCtlWrite who sl t q v => Sys2Proof.Machine.execTntQCtlWrite who sl t q v s
  | .qResume who sl t q => Sys2Proof.Machine.execQResume who sl t q s
  | .queueTailStore sl t q => Sys2Proof.Machine.execQueueTailStore sl t q s
  | .entryNop sl t q => Sys2Proof.Machine.execEntryNop sl t q s
  | .threadEntry sl t q => Sys2Proof.Machine.execThreadEntry sl t q s
  | .marker sl t q => Sys2Proof.Machine.execMarker sl t q s
  | .reservedEntryKind sl t q => Sys2Proof.Machine.execReservedEntryKind sl t q s
  | .entryCompletion sl t q entry => Sys2Proof.Machine.execEntryCompletion sl t q entry s
  | .tollReached sl t => Sys2Proof.Machine.execTollReached sl t s
  | .ledgerStep sl core other => Sys2Proof.Machine.execLedgerStep sl core other s
  | .add sl c => Sys2Proof.Machine.execAdd sl c s
  | .sub sl c => Sys2Proof.Machine.execSub sl c s
  | .mul sl c => Sys2Proof.Machine.execMul sl c s
  | .mulh sl c => Sys2Proof.Machine.execMulh sl c s
  | .div sl c => Sys2Proof.Machine.execDiv sl c s
  | .rem sl c => Sys2Proof.Machine.execRem sl c s
  | .and sl c => Sys2Proof.Machine.execAnd sl c s
  | .or sl c => Sys2Proof.Machine.execOr sl c s
  | .xor sl c => Sys2Proof.Machine.execXor sl c s
  | .shl sl c => Sys2Proof.Machine.execShl sl c s
  | .shr sl c => Sys2Proof.Machine.execShr sl c s
  | .sra sl c => Sys2Proof.Machine.execSra sl c s
  | .min sl c => Sys2Proof.Machine.execMin sl c s
  | .max sl c => Sys2Proof.Machine.execMax sl c s
  | .seq sl c => Sys2Proof.Machine.execSeq sl c s
  | .slt sl c => Sys2Proof.Machine.execSlt sl c s
  | .sle sl c => Sys2Proof.Machine.execSle sl c s
  | .clz sl c => Sys2Proof.Machine.execClz sl c s
  | .popc sl c => Sys2Proof.Machine.execPopc sl c s
  | .fadd sl c => Sys2Proof.Machine.execFadd sl c s
  | .fsub sl c => Sys2Proof.Machine.execFsub sl c s
  | .fmul sl c => Sys2Proof.Machine.execFmul sl c s
  | .ffma sl c => Sys2Proof.Machine.execFfma sl c s
  | .fdiv sl c => Sys2Proof.Machine.execFdiv sl c s
  | .fsqrt sl c => Sys2Proof.Machine.execFsqrt sl c s
  | .fmin sl c => Sys2Proof.Machine.execFmin sl c s
  | .fmax sl c => Sys2Proof.Machine.execFmax sl c s
  | .fneg sl c => Sys2Proof.Machine.execFneg sl c s
  | .fabs sl c => Sys2Proof.Machine.execFabs sl c s
  | .feq sl c => Sys2Proof.Machine.execFeq sl c s
  | .flt sl c => Sys2Proof.Machine.execFlt sl c s
  | .fle sl c => Sys2Proof.Machine.execFle sl c s
  | .fcvt sl c => Sys2Proof.Machine.execFcvt sl c s
  | .movi sl c => Sys2Proof.Machine.execMovi sl c s
  | .wbcast sl c => Sys2Proof.Machine.execWbcast sl c s
  | .wins sl c => Sys2Proof.Machine.execWins sl c s
  | .wext sl c => Sys2Proof.Machine.execWext sl c s
  | .pmov sl c => Sys2Proof.Machine.execPmov sl c s
  | .pset sl c => Sys2Proof.Machine.execPset sl c s
  | .wmovi sl c => Sys2Proof.Machine.execWmovi sl c s
  | .ceq sl c => Sys2Proof.Machine.execCeq sl c s
  | .cne sl c => Sys2Proof.Machine.execCne sl c s
  | .clt sl c => Sys2Proof.Machine.execClt sl c s
  | .cle sl c => Sys2Proof.Machine.execCle sl c s
  | .pand sl c => Sys2Proof.Machine.execPand sl c s
  | .por sl c => Sys2Proof.Machine.execPor sl c s
  | .pxor sl c => Sys2Proof.Machine.execPxor sl c s
  | .pandn sl c => Sys2Proof.Machine.execPandn sl c s
  | .pnot sl c => Sys2Proof.Machine.execPnot sl c s
  | .br sl c => Sys2Proof.Machine.execBr sl c s
  | .brr sl c => Sys2Proof.Machine.execBrr sl c s
  | .call sl c => Sys2Proof.Machine.execCall sl c s
  | .callr sl c => Sys2Proof.Machine.execCallr sl c s
  | .beq sl c => Sys2Proof.Machine.execBeq sl c s
  | .bne sl c => Sys2Proof.Machine.execBne sl c s
  | .blt sl c => Sys2Proof.Machine.execBlt sl c s
  | .bge sl c => Sys2Proof.Machine.execBge sl c s
  | .bany sl c => Sys2Proof.Machine.execBany sl c s
  | .ball sl c => Sys2Proof.Machine.execBall sl c s
  | .ld sl c => Sys2Proof.Machine.execLd sl c s
  | .st sl c => Sys2Proof.Machine.execSt sl c s
  | .ldx sl c => Sys2Proof.Machine.execLdx sl c s
  | .stx sl c => Sys2Proof.Machine.execStx sl c s
  | .pref sl c => Sys2Proof.Machine.execPref sl c s
  | .amoswap sl c => Sys2Proof.Machine.execAmoswap sl c s
  | .amoadd sl c => Sys2Proof.Machine.execAmoadd sl c s
  | .amoand sl c => Sys2Proof.Machine.execAmoand sl c s
  | .amoor sl c => Sys2Proof.Machine.execAmoor sl c s
  | .amoxor sl c => Sys2Proof.Machine.execAmoxor sl c s
  | .amomin sl c => Sys2Proof.Machine.execAmomin sl c s
  | .amomax sl c => Sys2Proof.Machine.execAmomax sl c s
  | .amocas sl c => Sys2Proof.Machine.execAmocas sl c s
  | .wld sl c => Sys2Proof.Machine.execWld sl c s
  | .wst sl c => Sys2Proof.Machine.execWst sl c s
  | .wldx sl c => Sys2Proof.Machine.execWldx sl c s
  | .wstx sl c => Sys2Proof.Machine.execWstx sl c s
  | .loadDataReturn sl c idx => Sys2Proof.Machine.execLoadDataReturn sl c idx s
  | .cvt sl c => Sys2Proof.Machine.execCvt sl c s
  | .wperm sl c => Sys2Proof.Machine.execWperm sl c s
  | .wrot sl c => Sys2Proof.Machine.execWrot sl c s
  | .wsel sl c => Sys2Proof.Machine.execWsel sl c s
  | .wredadd sl c => Sys2Proof.Machine.execWredadd sl c s
  | .wredmin sl c => Sys2Proof.Machine.execWredmin sl c s
  | .wredmax sl c => Sys2Proof.Machine.execWredmax sl c s
  | .mma sl c => Sys2Proof.Machine.execMma sl c s
  | .mmax sl c => Sys2Proof.Machine.execMmax sl c s
  | .mmaz sl c => Sys2Proof.Machine.execMmaz sl c s
  | .tzero sl c => Sys2Proof.Machine.execTzero sl c s
  | .tld sl c => Sys2Proof.Machine.execTld sl c s
  | .tst sl c => Sys2Proof.Machine.execTst sl c s
  | .trd sl c => Sys2Proof.Machine.execTrd sl c s
  | .twr sl c => Sys2Proof.Machine.execTwr sl c s
  | .fence sl c => Sys2Proof.Machine.execFence sl c s
  | .ifence sl c => Sys2Proof.Machine.execIfence sl c s
  | .cflush sl c => Sys2Proof.Machine.execCflush sl c s
  | .cinval sl c => Sys2Proof.Machine.execCinval sl c s
  | .waitwork sl c => Sys2Proof.Machine.execWaitwork sl c s
  | .ready sl c => Sys2Proof.Machine.execReady sl c s
  | .yield sl c => Sys2Proof.Machine.execYield sl c s
  | .bellwait sl c => Sys2Proof.Machine.execBellwait sl c s
  | .tesubmit sl c => Sys2Proof.Machine.execTesubmit sl c s
  | .teresume sl c => Sys2Proof.Machine.execTeresume sl c s
  | .probesub sl c => Sys2Proof.Machine.execProbesub sl c s
  | .deplaunch sl c => Sys2Proof.Machine.execDeplaunch sl c s
  | .nop sl c => Sys2Proof.Machine.execNop sl c s
  | .crrd sl c => Sys2Proof.Machine.execCrrd sl c s
  | .crwr sl c => Sys2Proof.Machine.execCrwr sl c s
  | .trap sl c => Sys2Proof.Machine.execTrap sl c s
  | .brk sl c => Sys2Proof.Machine.execBrk sl c s
  | .tret sl c => Sys2Proof.Machine.execTret sl c s
  | .schedInterrupt sl c => Sys2Proof.Machine.execSchedInterrupt sl c s
  | .smDeferTimeout sl c => Sys2Proof.Machine.execSmDeferTimeout sl c s
  | .dispatch sl c => Sys2Proof.Machine.execDispatch sl c s
  | .schedEvent sl t kind handle => Sys2Proof.Machine.execSchedEvent sl t kind handle s
  | .schChCfgWrite who sl d ch v => Sys2Proof.Machine.execSchChCfgWrite who sl d ch v s
  | .tlbiCmd who sl v => Sys2Proof.Machine.execTlbiCmd who sl v s
  | .tlbiSyncRead who sl => Sys2Proof.Machine.execTlbiSyncRead who sl s
  | .regEntryWrite who sl idx v => Sys2Proof.Machine.execRegEntryWrite who sl idx v s
  | .regionConversionDone sl idx => Sys2Proof.Machine.execRegionConversionDone sl idx s
  | .patrolScrub sl words => Sys2Proof.Machine.execPatrolScrub sl words s
  | .rdReq src dst => Sys2Proof.Machine.execRdReq src dst s
  | .rdRsp src dst => Sys2Proof.Machine.execRdRsp src dst s
  | .wr src dst => Sys2Proof.Machine.execWr src dst s
  | .wrAck src dst => Sys2Proof.Machine.execWrAck src dst s
  | .amo src dst => Sys2Proof.Machine.execAmo src dst s
  | .amoRsp src dst => Sys2Proof.Machine.execAmoRsp src dst s
  | .remoteAccessTimeout sl c idx => Sys2Proof.Machine.execRemoteAccessTimeout sl c idx s
  | .porterCopy sl d => Sys2Proof.Machine.execPorterCopy sl d s
  | .porterFill sl d => Sys2Proof.Machine.execPorterFill sl d s
  | .porterComplete sl d => Sys2Proof.Machine.execPorterComplete sl d s
  | .prtCtlWrite who sl d v => Sys2Proof.Machine.execPrtCtlWrite who sl d v s
  | .teBatch sl t q => Sys2Proof.Machine.execTeBatch sl t q s
  | .caravanDispatch sl e => Sys2Proof.Machine.execCaravanDispatch sl e s
  | .callbackPost sl e slot => Sys2Proof.Machine.execCallbackPost sl e slot s
  | .hitRecordWrite sl e slot => Sys2Proof.Machine.execHitRecordWrite sl e slot s
  | .engineDrainDone sl e => Sys2Proof.Machine.execEngineDrainDone sl e s
  | .teHqCtlWrite who sl e h v => Sys2Proof.Machine.execTeHqCtlWrite who sl e h v s
  | .teHqResume who sl e h => Sys2Proof.Machine.execTeHqResume who sl e h s
  | .probeBatch sl t q => Sys2Proof.Machine.execProbeBatch sl t q s
  | .probeResultWrite sl e slot => Sys2Proof.Machine.execProbeResultWrite sl e slot s
  | .prbRqCtlWrite who sl e h v => Sys2Proof.Machine.execPrbRqCtlWrite who sl e h v s
  | .prbRqResume who sl e h => Sys2Proof.Machine.execPrbRqResume who sl e h s
  | .clear sl r => Sys2Proof.Machine.execClear sl r s
  | .vis sl r => Sys2Proof.Machine.execVis sl r s
  | .frag sl r => Sys2Proof.Machine.execFrag sl r s
  | .blend sl r => Sys2Proof.Machine.execBlend sl r s
  | .resolve sl r => Sys2Proof.Machine.execResolve sl r s
  | .present sl r => Sys2Proof.Machine.execPresent sl r s
  | .rfeGrowGo who sl t r => Sys2Proof.Machine.execRfeGrowGo who sl t r s
  | .rfeGrowFlush who sl t r => Sys2Proof.Machine.execRfeGrowFlush who sl t r s
  | .rfeCmpPreempt sl r => Sys2Proof.Machine.execRfeCmpPreempt sl r s
  | .rfeCmpCtlWrite who sl v => Sys2Proof.Machine.execRfeCmpCtlWrite who sl v s
  | .rfeCmpStrideWrite who sl v => Sys2Proof.Machine.execRfeCmpStrideWrite who sl v s
  | .presentationBoundary sl => Sys2Proof.Machine.execPresentationBoundary sl s
  | .depotEntry sl t q => Sys2Proof.Machine.execDepotEntry sl t q s
  | .depotKernelStart sl d => Sys2Proof.Machine.execDepotKernelStart sl d s
  | .depEnd sl d => Sys2Proof.Machine.execDepEnd sl d s
  | .depLd sl d => Sys2Proof.Machine.execDepLd sl d s
  | .depSt sl d => Sys2Proof.Machine.execDepSt sl d s
  | .ldw sl d => Sys2Proof.Machine.execLdw sl d s
  | .stn sl d => Sys2Proof.Machine.execStn sl d s
  | .gather sl d => Sys2Proof.Machine.execGather sl d s
  | .scatter sl d => Sys2Proof.Machine.execScatter sl d s
  | .fsend sl d => Sys2Proof.Machine.execFsend sl d s
  | .frecv sl d => Sys2Proof.Machine.execFrecv sl d s
  | .footpathMessage sl d => Sys2Proof.Machine.execFootpathMessage sl d s
  | .depAdd sl d => Sys2Proof.Machine.execDepAdd sl d s
  | .depSub sl d => Sys2Proof.Machine.execDepSub sl d s
  | .depMul sl d => Sys2Proof.Machine.execDepMul sl d s
  | .depFma sl d => Sys2Proof.Machine.execDepFma sl d s
  | .depMin sl d => Sys2Proof.Machine.execDepMin sl d s
  | .depMax sl d => Sys2Proof.Machine.execDepMax sl d s
  | .cmpeq sl d => Sys2Proof.Machine.execCmpeq sl d s
  | .cmplt sl d => Sys2Proof.Machine.execCmplt sl d s
  | .cmple sl d => Sys2Proof.Machine.execCmple sl d s
  | .sel sl d => Sys2Proof.Machine.execSel sl d s
  | .redadd sl d => Sys2Proof.Machine.execRedadd sl d s
  | .redmin sl d => Sys2Proof.Machine.execRedmin sl d s
  | .redmax sl d => Sys2Proof.Machine.execRedmax sl d s
  | .splat sl d => Sys2Proof.Machine.execSplat sl d s
  | .mova sl d => Sys2Proof.Machine.execMova sl d s
  | .vins sl d => Sys2Proof.Machine.execVins sl d s
  | .boxu sl d => Sys2Proof.Machine.execBoxu sl d s
  | .tribox sl d => Sys2Proof.Machine.execTribox sl d s
  | .nhdr sl d => Sys2Proof.Machine.execNhdr sl d s
  | .qchild sl d => Sys2Proof.Machine.execQchild sl d s
  | .adam sl d => Sys2Proof.Machine.execAdam sl d s
  | .crc sl d => Sys2Proof.Machine.execCrc sl d s
  | .depMovi sl d => Sys2Proof.Machine.execDepMovi sl d s
  | .addi sl d => Sys2Proof.Machine.execAddi sl d s
  | .andi sl d => Sys2Proof.Machine.execAndi sl d s
  | .shli sl d => Sys2Proof.Machine.execShli sl d s
  | .shri sl d => Sys2Proof.Machine.execShri sl d s
  | .adda sl d => Sys2Proof.Machine.execAdda sl d s
  | .depBr sl d => Sys2Proof.Machine.execDepBr sl d s
  | .bz sl d => Sys2Proof.Machine.execBz sl d s
  | .bnz sl d => Sys2Proof.Machine.execBnz sl d s
  | .depLoop sl d => Sys2Proof.Machine.execDepLoop sl d s
  | .depotStallTimeout sl d => Sys2Proof.Machine.execDepotStallTimeout sl d s
  | .heartbeat sl => Sys2Proof.Machine.execHeartbeat sl s
  | .tetherLinkTimeout sl => Sys2Proof.Machine.execTetherLinkTimeout sl s
  | .tetherLaneLoss sl lanes => Sys2Proof.Machine.execTetherLaneLoss sl lanes s
  | .tetherTrainingDone sl lanes => Sys2Proof.Machine.execTetherTrainingDone sl lanes s
  | .tetherRetrain who sl => Sys2Proof.Machine.execTetherRetrain who sl s
  | .page sl => Sys2Proof.Machine.execPage sl s
  | .snap sl => Sys2Proof.Machine.execSnap sl s
  | .commit sl => Sys2Proof.Machine.execCommit sl s
  | .digest sl => Sys2Proof.Machine.execDigest sl s
  | .resilver sl => Sys2Proof.Machine.execResilver sl s
  | .reservedFrame sl type => Sys2Proof.Machine.execReservedFrame sl type s
  | .ack sl => Sys2Proof.Machine.execAck sl s
  | .ackTimeout sl => Sys2Proof.Machine.execAckTimeout sl s
  | .sledLost sl => Sys2Proof.Machine.execSledLost sl s
  | .dying sl => Sys2Proof.Machine.execDying sl s
  | .mgmtEvent n => Sys2Proof.Machine.execMgmtEvent n s
  | .join sl b => Sys2Proof.Machine.execJoin sl b s
  | .cfg sl => Sys2Proof.Machine.execCfg sl s
  | .leaseExpiry sl => Sys2Proof.Machine.execLeaseExpiry sl s
  | .rfTakeover b => Sys2Proof.Machine.execRfTakeover b s
  | .drain who sl => Sys2Proof.Machine.execDrain who sl s
  | .isolate who sl => Sys2Proof.Machine.execIsolate who sl s
  | .release who sl => Sys2Proof.Machine.execRelease who sl s
  | .pushCfg who sl => Sys2Proof.Machine.execPushCfg who sl s
  | .twnRangeWrite who sl idx v => Sys2Proof.Machine.execTwnRangeWrite who sl idx v s
  | .railSample sl vin v12 vpp => Sys2Proof.Machine.execRailSample sl vin v12 vpp s
  | .immediateStop sl vin v12 => Sys2Proof.Machine.execImmediateStop sl vin v12 s
  | .powerRestore sl => Sys2Proof.Machine.execPowerRestore sl s
  | .clockStep sl powerMax thermalMax => Sys2Proof.Machine.execClockStep sl powerMax thermalMax s
  | .nvWriteRequest sl w => Sys2Proof.Machine.execNvWriteRequest sl w s
  | .clrmin who sl => Sys2Proof.Machine.execClrmin who sl s
  | .consoleRxCharacter n samples => Sys2Proof.Machine.execConsoleRxCharacter n samples s
  | .rxBreak n bits => Sys2Proof.Machine.execRxBreak n bits s
  | .lineDeadOn n line => Sys2Proof.Machine.execLineDeadOn n line s
  | .lineDeadOff n line => Sys2Proof.Machine.execLineDeadOff n line s
  | .wake n line => Sys2Proof.Machine.execWake n line s
  | .cslTxdataWrite who n v => Sys2Proof.Machine.execCslTxdataWrite who n v s
  | .txCharacterStart n cts => Sys2Proof.Machine.execTxCharacterStart n cts s
  | .cslRxdataRead who n => Sys2Proof.Machine.execCslRxdataRead who n s
  | .sendBrk who n => Sys2Proof.Machine.execSendBrk who n s
  | .rxflush who n => Sys2Proof.Machine.execRxflush who n s
  | .txflush who n => Sys2Proof.Machine.execTxflush who n s
  | .cslFmtWrite who n v => Sys2Proof.Machine.execCslFmtWrite who n v s
  | .cslDivWrite who n v => Sys2Proof.Machine.execCslDivWrite who n v s
  | .cslRtsWrite who n v => Sys2Proof.Machine.execCslRtsWrite who n v s
  | .send who n => Sys2Proof.Machine.execSend who n s
  | .courierFrameStart n readback => Sys2Proof.Machine.execCourierFrameStart n readback s
  | .courierFrameRx n chars => Sys2Proof.Machine.execCourierFrameRx n chars s
  | .ping n f => Sys2Proof.Machine.execPing n f s
  | .pong n f => Sys2Proof.Machine.execPong n f s
  | .courierEvent n f => Sys2Proof.Machine.execCourierEvent n f s
  | .courierAck n f => Sys2Proof.Machine.execCourierAck n f s
  | .courierEventResend n => Sys2Proof.Machine.execCourierEventResend n s
  | .driveClr who n => Sys2Proof.Machine.execDriveClr who n s
  | .curRxbufRead who n buf => Sys2Proof.Machine.execCurRxbufRead who n buf s
  | .courierIsolationSearch b holds rackLow => Sys2Proof.Machine.execCourierIsolationSearch b holds rackLow s
  | .curRkIsoWrite who b v => Sys2Proof.Machine.execCurRkIsoWrite who b v s
  | .sledPowerOn sl t => Sys2Proof.Machine.execSledPowerOn sl t s
  | .joinResend sl => Sys2Proof.Machine.execJoinResend sl s
  | .rackFactorBoot b => Sys2Proof.Machine.execRackFactorBoot b s
  | .firstBell => Sys2Proof.Machine.execFirstBell s
  | .recoveryImage sl image => Sys2Proof.Machine.execRecoveryImage sl image s
  | .fuseProgram who sl => Sys2Proof.Machine.execFuseProgram who sl s
  | .fuseResume sl => Sys2Proof.Machine.execFuseResume sl s
  | .dataPortRxFrame p frame fcsOk => Sys2Proof.Machine.execDataPortRxFrame p frame fcsOk s
  | .dataPortTxFrame p => Sys2Proof.Machine.execDataPortTxFrame p s
  | .dataPortResume who p => Sys2Proof.Machine.execDataPortResume who p s
  | .videoPacketSend p => Sys2Proof.Machine.execVideoPacketSend p s
  | .videoArpRequest p ip => Sys2Proof.Machine.execVideoArpRequest p ip s
  | .rfeVidCtlWrite who p v => Sys2Proof.Machine.execRfeVidCtlWrite who p v s
  | .rfeVidRasterWrite who p v => Sys2Proof.Machine.execRfeVidRasterWrite who p v s
  | .bypass sl => Sys2Proof.Machine.execBypass sl s
  | .sample sl => Sys2Proof.Machine.execSample sl s
  | .preload sl cells => Sys2Proof.Machine.execPreload sl cells s
  | .extest sl => Sys2Proof.Machine.execExtest sl s
  | .idcode sl => Sys2Proof.Machine.execIdcode sl s
  | .tapPrivate sl op => Sys2Proof.Machine.execTapPrivate sl op s
  | .reservedOpcode sl c => Sys2Proof.Machine.execReservedOpcode sl c s
  | .fetchFault sl c => Sys2Proof.Machine.execFetchFault sl c s
  | .depIllegal sl d => Sys2Proof.Machine.execDepIllegal sl d s
  | .probeNodeVisit sl e slot => Sys2Proof.Machine.execProbeNodeVisit sl e slot s
  | .rfStateCopy b => Sys2Proof.Machine.execRfStateCopy b s
  | .rackSimplex => Sys2Proof.Machine.execRackSimplex s
  | .courierCharGap n => Sys2Proof.Machine.execCourierCharGap n s
  | .videoLinkChange p up => Sys2Proof.Machine.execVideoLinkChange p up s

end Sys2Proof.Machine
end

