-- ==== Sys2Proof/Safety.lean ====
section
/-! DEFINITION. What counts as a safe run, and the terms the claims use: an instruction that issues, what a result leaves unchanged, and the invariant. -/
namespace Sys2Proof.Machine

/-- The step of `s` goes on. -/
def goesOn (s : State) : Prop := ∃ t, step s = .next t

/-- `k` steps from `s` all go on. -/
def safeFor : Nat → State → Prop
  | 0, _ => True
  | k + 1, s => ∃ t, step s = .next t ∧ safeFor k t

/-! ### An instruction that issues -/

/-- Word `i` is the next instruction of core `c`, it is an `mn`, and nothing keeps it from issuing: the core may issue (R129), `s1` is the state after the
fetch, the word is not ILLEGAL (R107), the mode may run it (R131), a scalar predicate holds (R110), and no register it names waits for an operation in flight or is
poisoned (R111, R112, R114). -/
def Issues (s : State) (sl : SledId) (c : CoreId) (mn : Mn) (i : IWord) (s1 : State) : Prop :=
  (s.sled sl).mayIssue c = true ∧ s.fetch sl c = (s1, .word i) ∧
  ∃ sp, specOf i = some sp ∧ sp.mn = mn ∧ legal sp i = true ∧ (needsKernel sp i = true → bit (s1.core sl c).state 0 = true) ∧
    (sp.pred = .scalar → bit ((s1.core sl c).pred i) 0 = true) ∧ (s1.core sl c).busy sp i = false ∧ (s1.core sl c).poisoned sp i = none

/-- Every byte of every sled reads as before. -/
def SameBytes (s t : State) : Prop := ∀ (x : SledId) (off : Nat), (t.sled x).byte off = (s.sled x).byte off

/-- No access to this sled's memory meets a conversion (R201). -/
def Sled.noStall (d : Sled) : Prop := ∀ off, d.converting off = false

/-- What the caches hold agrees with memory in every word that no store touched: no Depot has written under a cached line (R369). -/
def Sled.agrees (d : Sled) : Prop :=
  ∀ (ln : Nat) (l : Line), (mget d.cache ln : Option Line) = some l → ∀ i, i < 8 → bit l.words i = false →
    l.data.extractLsb' (64 * i) 64 = (d.fill ln).data.extractLsb' (64 * i) 64 ∧ bit l.poison i = bit (d.fill ln).poison i

/-- `t` differs from `s` in core `c` of sled `sl` and in that sled's event counts only. -/
def OnlyCore (s t : State) (sl : SledId) (c : CoreId) : Prop :=
  (∃ cs ns, t = s.setSled sl { s.sled sl with cores := cs, counts := ns }) ∧ (∀ e : CoreId, e ≠ c → t.core sl e = s.core sl e) ∧ SameBytes s t

/-- How often an event of Table 13.4 was counted for a tenant on a sled. -/
def State.tallied (s : State) (sl : SledId) (t : TenantId) (idx : Nat) : Nat := mget (s.sled sl).counts (t.val * 32 + idx)

/-- An instruction of core `c` issued, is counted, and changed that core alone. -/
def Retires (s t : State) (sl : SledId) (c : CoreId) : Prop :=
  OnlyCore s t sl c ∧ t.tallied sl (s.core sl c).tenant 6 = s.tallied sl (s.core sl c).tenant 6 + 1

/-- SRCOUNT after an instruction: it steps where SR is set (R120). -/
def Core.srAfter (k : Core) (i : IWord) : Word64 := if iSr i then k.srcount + 1 else k.srcount

/-- The core `k'` is `k` after an instruction `i` whose result `v` went to sD: s63 discards it, every other scalar register, poison mark and
register of the core is unchanged, the flags `fl` are gained, and PC is at `pc`. -/
def ScalarResult (k k' : Core) (i : IWord) (v : Word64) (fl : Nat) (pc : Word64) : Prop :=
  k' = { k with s := k'.s, poisonS := k'.poisonS, fpcsr := k.fpcsr ||| BitVec.ofNat 64 (fl % 32), srcount := k.srAfter i, pc := pc } ∧
  k'.getS (iD i) = (if iD i = 63 then 0 else v) ∧ k'.poison .s (iD i) = none ∧
  ∀ n, n ≠ iD i → k'.getS n = k.getS n ∧ k'.poison .s n = k.poison .s n

/-- The core `k'` is `k` after an instruction `i` that gave the elements `on` of width `w` of wD the values `f`: the other elements and every other register
are unchanged; STATE.WD is set where anything was written, and a write of the whole register clears its poison (R109, R114). -/
def WideResult (k k' : Core) (i : IWord) (w : Nat) (on : Nat → Bool) (f : Nat → Nat) (fl : Nat) : Prop :=
  k' = { k with w := k'.w, poisonW := k'.poisonW, state := if (List.range (2048 / w)).any on then k.state ||| 0x10 else k.state
                fpcsr := k.fpcsr ||| BitVec.ofNat 64 (fl % 32), srcount := k.srAfter i, pc := k.pc + 16 } ∧
  (∀ e, e < 2048 / w → elt w (k'.getW (iD i)) e = if on e then f e % 2 ^ w else elt w (k.getW (iD i)) e) ∧
  k'.poison .w (iD i) = (if (List.range (2048 / w)).all on then none else k.poison .w (iD i)) ∧
  ∀ n, n ≠ iD i → k'.getW n = k.getW n ∧ k'.poison .w n = k.poison .w n

/-- The same for the 256 FP32 elements of a tile, row e / 16 and column e mod 16, and STATE.TD. -/
def TileResult (k k' : Core) (i : IWord) (on : Nat → Bool) (f : Nat → Nat) (fl : Nat) : Prop :=
  k' = { k with t := k'.t, poisonT := k'.poisonT, state := if (List.range 256).any on then k.state ||| 0x20 else k.state
                fpcsr := k.fpcsr ||| BitVec.ofNat 64 (fl % 32), srcount := k.srAfter i, pc := k.pc + 16 } ∧
  (∀ e, e < 256 → elt 32 (k'.getT (iD i)) e = if on e then f e % 2 ^ 32 else elt 32 (k.getT (iD i)) e) ∧
  k'.poison .t (iD i) = (if (List.range 256).all on then none else k.poison .t (iD i)) ∧
  ∀ n, n ≠ iD i → k'.getT n = k.getT n ∧ k'.poison .t n = k.poison .t n

/-- The core `k'` is `k` after an instruction `i` whose result `v` went to pD: p0 discards it, and every other register is unchanged. -/
def PredResult (k k' : Core) (i : IWord) (v : Word64) (fl : Nat) : Prop :=
  k' = { k with p := k'.p, fpcsr := k.fpcsr ||| BitVec.ofNat 64 (fl % 32), srcount := k.srAfter i, pc := k.pc + 16 } ∧
  k'.getP (iD i) = (if iD i = 0 then BitVec.allOnes 64 else v) ∧ ∀ n, n ≠ iD i → k'.getP n = k.getP n

/-! ### Exceptions -/

/-- The state after core `c` of `s` took the exception `code` with EADDR `ea` and EPC `epc` outside EXL: ESTATE takes STATE, then K, EXL and SM are set, the core
synchronizes its text, and PC is TVEC, or TVEC + 0x100 from kernel mode (R125). Nothing but the core and the text that no core can still execute changes. -/
def TookTrap (s t : State) (sl : SledId) (c : CoreId) (code level : Nat) (ea epc : Word64) : Prop :=
  let k := s.core sl c
  t.core sl c = { k with epc := epc, ecause := BitVec.ofNat 64 (code + 256 * level), eaddr := ea, estate := k.state, state := k.state ||| 7
                         pc := if bit k.state 0 then k.tvec + 0x100 else k.tvec, textSeq := (s.sled sl).textSeq, farSeq := tableOf 16 (s.ctx sl).marks } ∧
  (∃ cs old, t = s.setSled sl { s.sled sl with cores := cs, oldText := old }) ∧ (∀ e : CoreId, e ≠ c → t.core sl e = s.core sl e) ∧ SameBytes s t

end Sys2Proof.Machine
end

