-- ==== Sys2Proof/Certificates/Slice0/Obligations.lean ====
section
/-! DEFINITION. The statements for the provers, with the tables and terms they are stated in. -/

open Sys2Proof Sys2Proof.Machine

/-! ### The queue and time -/

/-- A step takes the command at the front of the queue and is `exec` of it on the state with the queue's rest; with no command waiting 1 ns passes and nothing else. The queue of
commands and the idle step are the model's own (log 1, log 10). -/
def Obligations.StepRunsTheFrontCommand : Prop :=
  (∀ (c : Instr) (rest : List Instr) (s : State), step { s with pending := c :: rest } = exec c { s with pending := rest }) ∧
  ∀ s : State, s.pending = [] → step s = .next { s with now := s.now + 1 }

/-- Every command of the table answers a next state, whatever the state. -/
def Sys2Proof.Machine.EveryCommandCompletes : Prop := ∀ (c : Instr) (s : State), ∃ t, exec c s = .next t

/-- No command touches the queue: a step takes the front and leaves the rest as it was. -/
def Sys2Proof.Machine.CommandsLeaveTheQueue : Prop := ∀ (c : Instr) (s t : State), exec c s = .next t → t.pending = s.pending

/-- Every command answers a next state, whatever the state, and leaves the queue as it is. A command whose event cannot happen now leaves the state as it is (log 16), and the queue is the model's own (log 10). -/
def Obligations.CommandsCompleteAndLeaveTheQueue : Prop := Sys2Proof.Machine.EveryCommandCompletes ∧ Sys2Proof.Machine.CommandsLeaveTheQueue

/-- Model time never goes back. That a timed command moves model time up to its instant is the model's choice (log 1). -/
def Obligations.TimeNeverGoesBack : Prop := ∀ (c : Instr) (s t : State), exec c s = .next t → s.now ≤ t.now

/-! ### Integer instructions -/

/-- The integer instructions of a core with the function each computes (Table 5.3). -/
def Sys2Proof.Machine.intRows (sl : SledId) (c : CoreId) : List (Instr × Mn × IntFn) :=
  [(.add sl c, .add, fnAdd), (.sub sl c, .sub, fnSub), (.mul sl c, .mul, fnMul), (.mulh sl c, .mulh, fnMulh), (.div sl c, .div, fnDiv),
   (.rem sl c, .rem, fnRem), (.and sl c, .and, fnAnd), (.or sl c, .or, fnOr), (.xor sl c, .xor, fnXor), (.shl sl c, .shl, fnShl),
   (.shr sl c, .shr, fnShr), (.sra sl c, .sra, fnSra), (.min sl c, .min, fnMin), (.max sl c, .max, fnMax), (.seq sl c, .seq, fnSeq),
   (.slt sl c, .slt, fnSlt), (.sle sl c, .sle, fnSle), (.clz sl c, .clz, fnClz), (.popc sl c, .popc, fnPopc)]

/-- A scalar integer instruction takes the low bits of its sources, writes its function's value, sign- or zero-extended by U, to sD, gains the function's
flags, moves PC to the next word, and changes nothing else. -/
def Sys2Proof.Machine.IntegerScalarResult : Prop :=
  ∀ (sl : SledId) (c : CoreId) (s s1 : State) (i : IWord) (cmd : Instr) (mn : Mn) (f : IntFn), (cmd, mn, f) ∈ intRows sl c →
    Issues s sl c mn i s1 → iOp i = 0x01 →
    let k := s1.core sl c
    let w := tWidth (iT i)
    let r := f w (iU i) (iSat i) ((k.getS (iA i)).toNat % 2 ^ w) ((if iI i then (iImm i).toNat else (k.getS (iB i)).toNat) % 2 ^ w)
    ∃ t, exec cmd s = .next t ∧ Retires s1 t sl c ∧ ScalarResult k (t.core sl c) i (extend w (!iU i) r.1) r.2 (k.pc + 16)

/-- A wide integer instruction computes its function element by element where the predicate is on, and leaves the other elements. -/
def Sys2Proof.Machine.IntegerWideResult : Prop :=
  ∀ (sl : SledId) (c : CoreId) (s s1 : State) (i : IWord) (cmd : Instr) (mn : Mn) (f : IntFn), (cmd, mn, f) ∈ intRows sl c →
    Issues s sl c mn i s1 → iOp i = 0x10 →
    let k := s1.core sl c
    let w := tWidth (iT i)
    let r := fun e => f w (iU i) (iSat i) (elt w (k.getW (iA i)) e) (if iI i then (iImm i).toNat % 2 ^ w else elt w (k.getW (iB i)) e)
    ∃ t, exec cmd s = .next t ∧ Retires s1 t sl c ∧
      WideResult k (t.core sl c) i w (elemOn (k.pred i) w) (fun e => (r e).1) (orFlags (k.pred i) w (2048 / w) fun e => (r e).2)

/-- The integer instructions, scalar and wide: their result, and what they leave unchanged. -/
def Obligations.IntegerResult : Prop := Sys2Proof.Machine.IntegerScalarResult ∧ Sys2Proof.Machine.IntegerWideResult

/-- Integer arithmetic against bit vectors: it wraps modulo 2^width unless SAT clamps it to the type's limits; shift counts are taken modulo the width; division by
zero sets DZ and gives all ones, the remainder by zero gives the dividend, and the signed quotient of the least value by −1 is that value with remainder 0 (R118). -/
def Sys2Proof.Machine.IntegerArithmeticFollowsBitVectors : Prop :=
  ∀ (w : Nat), 0 < w → ∀ (u : Bool) (x y : BitVec w), let a := x.toNat; let b := y.toNat; let val := fun (z : BitVec w) => if u then (z.toNat : Int) else z.toInt
    (fnAdd w u false a b = ((x + y).toNat, 0) ∧ fnSub w u false a b = ((x - y).toNat, 0) ∧ fnMul w u false a b = ((x * y).toNat, 0)) ∧
    (∀ (g : IntFn) (v : Int), (g, v) ∈ [(fnAdd, val x + val y), (fnSub, val x - val y), (fnMul, val x * val y)] →
      (g w u true a b).2 = 0 ∧ ∃ z : BitVec w, (g w u true a b).1 = z.toNat ∧ val z = max (intMin w u) (min (intMax w u) v)) ∧
    (fnShl w u false a b = ((x <<< (b % w)).toNat, 0) ∧ fnShr w u false a b = ((x >>> (b % w)).toNat, 0) ∧ fnSra w u false a b = ((x.sshiftRight (b % w)).toNat, 0)) ∧
    (y = 0 → fnDiv w u false a b = ((BitVec.allOnes w).toNat, fDZ) ∧ fnRem w u false a b = (a, fDZ)) ∧
    (y ≠ 0 → u = true → fnDiv w u false a b = ((x / y).toNat, 0) ∧ fnRem w u false a b = ((x % y).toNat, 0)) ∧
    (y ≠ 0 → u = false → fnDiv w u false a b = ((x.sdiv y).toNat, 0) ∧ fnRem w u false a b = ((x.srem y).toNat, 0)) ∧
    (u = false → x = BitVec.intMin w → y = BitVec.allOnes w → fnDiv w u false a b = (x.toNat, 0) ∧ fnRem w u false a b = (0, 0))

/-- Comparisons, minimum and maximum go by the value of the operands, signed unless U; logic is bitwise; MULH is the high half of the exact product; CLZ and POPC count
bits of the element (Table 5.3). -/
def Obligations.IntegerSelectionAndBits : Prop :=
  ∀ (w : Nat), 0 < w → ∀ (u sat : Bool) (x y : BitVec w), let a := x.toNat; let b := y.toNat; let val := fun (z : BitVec w) => if u then (z.toNat : Int) else z.toInt
    fnAnd w u sat a b = ((x &&& y).toNat, 0) ∧ fnOr w u sat a b = ((x ||| y).toNat, 0) ∧ fnXor w u sat a b = ((x ^^^ y).toNat, 0) ∧
    fnSeq w u sat a b = (if x = y then 1 else 0, 0) ∧ fnSlt w u sat a b = (if val x < val y then 1 else 0, 0) ∧
    fnSle w u sat a b = (if val x ≤ val y then 1 else 0, 0) ∧
    fnMin w u sat a b = (if val x ≤ val y then a else b, 0) ∧ fnMax w u sat a b = (if val x < val y then b else a, 0) ∧
    fnMulh w u sat a b = ((BitVec.ofInt w (val x * val y / 2 ^ w)).toNat, 0) ∧
    (∃ n, fnClz w u sat a b = (n, 0) ∧ n ≤ w ∧ a < 2 ^ (w - n) ∧ (n < w → 2 ^ (w - n - 1) ≤ a)) ∧
    fnPopc w u sat a b = ((List.range w).countP fun j => x.getLsbD j, 0)

/-! ### Floating point -/

/-- The floating-point instructions of Table 5.4 with the function each computes. -/
def Sys2Proof.Machine.fpRows (sl : SledId) (c : CoreId) : List (Instr × Mn × FpFn) :=
  [(.fadd sl c, .fadd, fnFadd), (.fsub sl c, .fsub, fnFsub), (.fmul sl c, .fmul, fnFmul), (.ffma sl c, .ffma, fnFfma), (.fdiv sl c, .fdiv, fnFdiv),
   (.fsqrt sl c, .fsqrt, fnFsqrt), (.fmin sl c, .fmin, fnFmin), (.fmax sl c, .fmax, fnFmax), (.fneg sl c, .fneg, fnFneg), (.fabs sl c, .fabs, fnFabs),
   (.feq sl c, .feq, fnFcmp 0), (.flt sl c, .flt, fnFcmp 1), (.fle sl c, .fle, fnFcmp 2)]

/-- A scalar floating-point instruction writes its function's value, zero-extended, to sD and gains its flags; the wide form works element by element where the
predicate is on; neither changes anything else. -/
def Obligations.FloatResult : Prop :=
  ∀ (sl : SledId) (c : CoreId) (s s1 : State) (i : IWord) (cmd : Instr) (mn : Mn) (f : FpFn), (cmd, mn, f) ∈ fpRows sl c →
    Issues s sl c mn i s1 →
    let k := s1.core sl c
    let w := tWidth (iT i)
    let one := f (tFmt (iT i)) (k.rnd i 0) ((k.getS (iA i)).toNat % 2 ^ w) ((if iI i then (iImm i).toNat else (k.getS (iB i)).toNat) % 2 ^ w) ((k.getS (iC i)).toNat % 2 ^ w)
    let each := fun e => f (tFmt (iT i)) (k.rnd i e) (elt w (k.getW (iA i)) e) (if iI i then (iImm i).toNat % 2 ^ w else elt w (k.getW (iB i)) e) (elt w (k.getW (iC i)) e)
    ∃ t, exec cmd s = .next t ∧ Retires s1 t sl c ∧
      (iOp i = 0x02 → ScalarResult k (t.core sl c) i (extend w false one.bits) one.flags (k.pc + 16)) ∧
      (iOp i = 0x11 → WideResult k (t.core sl c) i w (elemOn (k.pred i) w) (fun e => (each e).bits) (orFlags (k.pred i) w (2048 / w) fun e => (each e).flags))

/-- A NaN input gives the canonical NaN with sign 0 (but to minimum and maximum, which take the other number), a signalling NaN input sets NV, and an invalid operation such as 0 × ∞ sets
NV even when another input is a quiet NaN (R116). -/
def Obligations.NanResultsAreCanonical : Prop :=
  ∀ (f : Fmt), f ∈ [.fp32, .fp16, .bf16] → ∀ (r : Rnd) (a b c : Nat), let isNan := fun n => anyNan [f.unpack n]; let snan := fun n => decide (f.unpack n = .nan true)
    (∀ res ∈ [f.add r a b, f.sub r a b, f.mul r a b, f.div r a b],
      ((isNan a || isNan b) = true → res.bits = f.nan) ∧ ((snan a || snan b) = true → res.flags &&& fNV = fNV)) ∧
    ((isNan a || isNan b || isNan c) = true → (f.fma r a b c).bits = f.nan) ∧
    ((snan a || snan b || snan c || badMul (f.unpack a) (f.unpack b)) = true → (f.fma r a b c).flags &&& fNV = fNV) ∧
    (isNan a = true → (f.sqrt r a).bits = f.nan ∧ (f.setSign a true).bits = f.nan ∧ (f.setSign a false).bits = f.nan) ∧
    (∀ m ∈ [f.minmax false a b, f.minmax true a b], ((isNan a && isNan b) = true → m.bits = f.nan) ∧ (isNan a = true → isNan b = false → m.bits = b % 2 ^ f.width) ∧
      (isNan a = false → isNan b = true → m.bits = a % 2 ^ f.width) ∧ ((snan a || snan b) = true → m.flags = fNV))

/-! ### Moves, conversions, compares, permutes, reductions -/

/-- Instructions whose result is one scalar register of core `k`, with the value: MOVI, WEXT, PMOV, FCVT and the reductions (Tables 5.4, 5.5, 5.11). A reduction takes the
active elements in ascending order. -/
def Sys2Proof.Machine.scalarMoveRows (sl : SledId) (c : CoreId) (k : Core) (i : IWord) : List (Instr × Mn × Word64 × Nat) :=
  let t := iT i
  let w := tWidth t
  let ext := extend w (decide (t < 3) && !iU i)
  let active := ((List.range (2048 / w)).filter fun e => elemOn (k.pred i) w e).map fun e => elt w (k.getW (iA i)) e
  let cv := convert ((iImm i).toNat % 8) t (iU i) (iSat i) (k.rnd i 0) ((k.getS (iA i)).toNat % 2 ^ tWidth ((iImm i).toNat % 8))
  let sum := redAdd t (iU i) (iSat i) (k.rnd i 0) active
  let least := redMinMax false t (iU i) active
  let greatest := redMinMax true t (iU i) active
  [(.movi sl c, .movi, iImm i, 0), (.wext sl c, .wext, ext (elt w (k.getW (iA i)) (iImm i).toNat), 0), (.pmov sl c, .pmov, k.getP (iA i), 0),
   (.fcvt sl c, .fcvt, ext cv.bits, cv.flags), (.wredadd sl c, .wredadd, ext sum.bits, sum.flags), (.wredmin sl c, .wredmin, ext least.bits, least.flags),
   (.wredmax sl c, .wredmax, ext greatest.bits, greatest.flags)]

/-- Those instructions write that value to sD and change nothing else. -/
def Sys2Proof.Machine.ScalarMoveResult : Prop :=
  ∀ (sl : SledId) (c : CoreId) (s s1 : State) (i : IWord) (cmd : Instr) (mn : Mn) (v : Word64) (fl : Nat),
    (cmd, mn, v, fl) ∈ scalarMoveRows sl c (s1.core sl c) i → Issues s sl c mn i s1 →
    ∃ t, exec cmd s = .next t ∧ Retires s1 t sl c ∧ ScalarResult (s1.core sl c) (t.core sl c) i v fl ((s1.core sl c).pc + 16)

/-- Instructions whose result is elements of one wide register, with the width, the elements written and their values: WBCAST, WINS, WMOVI, WPERM, WROT, WSEL and TRD
(Tables 5.5, 5.11, 5.12). -/
def Sys2Proof.Machine.wideMoveRows (sl : SledId) (c : CoreId) (k : Core) (i : IWord) : List (Instr × Mn × Nat × (Nat → Bool) × (Nat → Nat)) :=
  let w := tWidth (iT i)
  let imm := (iImm i).toNat
  let a := k.getW (iA i)
  let b := k.getW (iB i)
  let lane := elemOn (k.pred i) 32
  [(.wbcast sl c, .wbcast, w, elemOn (k.pred i) w, fun _ => (k.getS (iA i)).toNat), (.wmovi sl c, .wmovi, w, elemOn (k.pred i) w, fun _ => imm),
   (.wins sl c, .wins, w, fun e => decide (e = imm), fun _ => (k.getS (iA i)).toNat),
   (.wperm sl c, .wperm, 32, lane, fun j => elt 32 a (elt 32 b j % 64)), (.wrot sl c, .wrot, 32, lane, fun j => elt 32 a ((j + 64 - imm % 64) % 64)),
   (.wsel sl c, .wsel, 32, fun _ => true, fun j => if lane j then elt 32 a j else elt 32 b j),
   (.trd sl c, .trd, 32, lane, fun j => elt 32 (k.getT (iA i)) (64 * (imm % 4) + j))]

/-- Those instructions write those elements of wD and leave the others and everything else. -/
def Sys2Proof.Machine.WideMoveResult : Prop :=
  ∀ (sl : SledId) (c : CoreId) (s s1 : State) (i : IWord) (cmd : Instr) (mn : Mn) (w : Nat) (on : Nat → Bool) (f : Nat → Nat),
    (cmd, mn, w, on, f) ∈ wideMoveRows sl c (s1.core sl c) i → Issues s sl c mn i s1 →
    ∃ t, exec cmd s = .next t ∧ Retires s1 t sl c ∧ WideResult (s1.core sl c) (t.core sl c) i w on f 0

/-- The moves between registers and the selections, scalar and wide. -/
def Obligations.MoveResult : Prop := Sys2Proof.Machine.ScalarMoveResult ∧ Sys2Proof.Machine.WideMoveResult

/-- CVT brings source element (PART × n + e or e − PART × n, by the widths) to destination element e, converted; destination elements that receive none, or are inactive,
are unchanged (R157). -/
def Obligations.ConversionsTakeTheirElements : Prop :=
  ∀ (sl : SledId) (c : CoreId) (s s1 : State) (i : IWord), Issues s sl c .cvt i s1 →
    let k := s1.core sl c
    let src := (iImm i).toNat % 8
    let part := (iImm i).toNat / 256 % 4
    let ns := tCount src
    let nd := tCount (iT i)
    let takes := fun e => if ns < nd then decide (part * ns ≤ e ∧ e < (part + 1) * ns) else true
    let source := fun e => if ns < nd then e - part * ns else if nd < ns then part * nd + e else e
    let on := fun e => elemOn (k.pred i) (tWidth (iT i)) e && takes e
    let r := fun e => convert src (iT i) (iU i) (iSat i) (k.rnd i e) (elt (tWidth src) (k.getW (iA i)) (source e))
    ∃ t fl, exec (.cvt sl c) s = .next t ∧ Retires s1 t sl c ∧ WideResult k (t.core sl c) i (tWidth (iT i)) on (fun e => (r e).bits) fl

/-- A conversion to an integer rounds under RM or SR; a NaN gives 0, and a value or infinity beyond the limits gives the limit, each with NV alone; an inexact result sets NX alone (R118, R120). -/
def Sys2Proof.Machine.ConversionToIntegerSaturates : Prop :=
  (∀ (src dst v : Nat) (u sat : Bool) (r : Rnd), 3 ≤ src → dst < 3 → convert src dst u sat r v = intOfVal (tWidth dst) u r ((tFmt src).unpack v)) ∧
  ∀ (w : Nat), 0 < w → ∀ (u : Bool) (r : Rnd),
    (∀ sig, intOfVal w u r (.nan sig) = ⟨0, fNV⟩) ∧
    (∀ neg, intOfVal w u r (.inf neg) = ⟨wrapInt w (if neg then intMin w u else intMax w u), fNV⟩) ∧
    ∀ (neg : Bool) (m : Nat) (e : Int), let q := roundAt r neg ⟨m, e, false⟩ 0; let v : Int := if neg then -(q.1 : Int) else q.1
      (v < intMin w u → intOfVal w u r (.fin neg m e) = ⟨wrapInt w (intMin w u), fNV⟩) ∧ (intMax w u < v → intOfVal w u r (.fin neg m e) = ⟨wrapInt w (intMax w u), fNV⟩) ∧
      (intMin w u ≤ v → v ≤ intMax w u → intOfVal w u r (.fin neg m e) = ⟨wrapInt w v, if q.2 then fNX else 0⟩) ∧
      (0 ≤ e → q = (m * 2 ^ e.toNat, false)) ∧
      (e < 0 → let one := 2 ^ (-e).toNat; let n := m / one; let rem := m % one
        let up : Bool := match r with
          | .near => decide (one < 2 * rem ∨ (2 * rem = one ∧ n % 2 = 1))
          | .zero => false
          | .up => decide (rem ≠ 0 ∧ neg = false)
          | .down => decide (rem ≠ 0 ∧ neg = true)
          | .sr x => decide (65536 ≤ 65536 * rem / one + x)
        q = (if up then n + 1 else n, decide (rem ≠ 0)))

/-- Integer arithmetic, and the conversions of floating point to integers. -/
def Obligations.IntegerArithmeticWrapsOrSaturates : Prop := Sys2Proof.Machine.IntegerArithmeticFollowsBitVectors ∧ Sys2Proof.Machine.ConversionToIntegerSaturates

/-- A compare writes bit j of pD for each active lane j, both bits of a 64-bit element, and leaves the others; p0 discards it (Table 5.6). -/
def Sys2Proof.Machine.CompareResult : Prop :=
  ∀ (sl : SledId) (c : CoreId) (s s1 : State) (i : IWord) (cmd : Instr) (mn : Mn) (kind : Nat),
    (cmd, mn, kind) ∈ [((.ceq sl c : Instr), Mn.ceq, 0), (.cne sl c, .cne, 1), (.clt sl c, .clt, 2), (.cle sl c, .cle, 3)] → Issues s sl c mn i s1 →
    let k := s1.core sl c
    let w := tWidth (iT i)
    let e := fun j => if w = 64 then j / 2 else j
    let r := fun e => cmpElt (iT i) (iU i) kind (elt w (k.getW (iA i)) e) (if iI i then (iImm i).toNat % 2 ^ w else elt w (k.getW (iB i)) e)
    ∃ t v, exec cmd s = .next t ∧ Retires s1 t sl c ∧ PredResult k (t.core sl c) i v (orFlags (k.pred i) w (2048 / w) fun e => (r e).2) ∧
      ∀ j, j < 64 → bit v j = if elemOn (k.pred i) w (e j) then (r (e j)).1 else bit (k.getP (iD i)) j

/-- Predicate logic, and PSET, write pD whole (Tables 5.5, 5.6). -/
def Sys2Proof.Machine.PredicateLogicResult : Prop :=
  ∀ (sl : SledId) (c : CoreId) (s s1 : State) (i : IWord) (cmd : Instr) (mn : Mn) (v : Word64),
    let k := s1.core sl c
    let a := k.getP (iA i)
    let b := if iI i then iImm i else k.getP (iB i)
    (cmd, mn, v) ∈ [((.pand sl c : Instr), Mn.pand, a &&& b), (.por sl c, .por, a ||| b), (.pxor sl c, .pxor, a ^^^ b), (.pandn sl c, .pandn, a &&& ~~~b),
      (.pnot sl c, .pnot, ~~~a), (.pset sl c, .pset, k.getS (iA i))] → Issues s sl c mn i s1 →
    ∃ t, exec cmd s = .next t ∧ Retires s1 t sl c ∧ PredResult k (t.core sl c) i v 0

/-- The compares write their predicate, and the predicate instructions combine predicates. -/
def Obligations.ComparesAndPredicates : Prop := Sys2Proof.Machine.CompareResult ∧ Sys2Proof.Machine.PredicateLogicResult

/-! ### The matrix unit -/

/-- MMA and its forms: element (row, column) of the active rows of tD takes the exact sum of the exact products of A's row and B's column, and of the old element but for
MMAZ, rounded once to FP32 (R119, R159); the other rows are unchanged. -/
def Sys2Proof.Machine.MatrixResult : Prop :=
  ∀ (sl : SledId) (c : CoreId) (s s1 : State) (i : IWord) (cmd : Instr) (mn : Mn) (tb : Nat) (old : Bool),
    (cmd, mn, tb, old) ∈ [((.mma sl c : Instr), Mn.mma, iT i, true), (.mmax sl c, .mmax, 13 - iT i, true), (.mmaz sl c, .mmaz, iT i, false)] → Issues s sl c mn i s1 →
    let k := s1.core sl c
    let kk := if iT i < 6 then 8 else 16
    let a := fun row m => (tFmt (iT i)).unpack (elt (tWidth (iT i)) (k.getW (iA i)) (kk * row + m))
    let b := fun m col => (tFmt tb).unpack (elt (tWidth tb) (k.getW (iB i)) (16 * m + col))
    let r := fun e => Fmt.fp32.sum (k.rnd i e)
      ((List.range kk).map (fun m => (a (e / 16) m).mul (b m (e % 16))) ++ if old then [Fmt.fp32.unpack (elt 32 (k.getT (iD i)) e)] else [])
      ((List.range kk).any fun m => badMul (a (e / 16) m) (b m (e % 16)))
      (snanFlag ((List.range kk).map (a (e / 16)) ++ (List.range kk).map (fun m => b m (e % 16)) ++ if old then [Fmt.fp32.unpack (elt 32 (k.getT (iD i)) e)] else []))
    ∃ t fl, exec cmd s = .next t ∧ Retires s1 t sl c ∧ TileResult k (t.core sl c) i (fun e => bit (k.pred i) (e / 16)) (fun e => (r e).bits) fl

/-- TZERO makes the active rows of tD +0, and TWR writes the active lanes of wA to its four rows (R160). -/
def Sys2Proof.Machine.TileMoveResult : Prop :=
  ∀ (sl : SledId) (c : CoreId) (s s1 : State) (i : IWord) (cmd : Instr) (mn : Mn) (on : Nat → Bool) (f : Nat → Nat),
    let k := s1.core sl c
    (cmd, mn, on, f) ∈ [((.tzero sl c : Instr), Mn.tzero, (fun e => bit (k.pred i) (e / 16)), fun _ => 0),
      (.twr sl c, .twr, (fun e => decide (e / 64 = (iImm i).toNat % 4) && bit (k.pred i) (e % 64)), fun e => elt 32 (k.getW (iA i)) (e % 64))] → Issues s sl c mn i s1 →
    ∃ t, exec cmd s = .next t ∧ Retires s1 t sl c ∧ TileResult k (t.core sl c) i on f 0

/-- The matrix instructions accumulate into a tile, and the tile moves copy. -/
def Obligations.MatrixAndTileResult : Prop := Sys2Proof.Machine.MatrixResult ∧ Sys2Proof.Machine.TileMoveResult

/-! ### Branches and the system instructions -/

/-- Branches: whether one is taken, and where it goes (Table 5.7). -/
def Sys2Proof.Machine.branchRows (sl : SledId) (c : CoreId) (k : Core) (i : IWord) : List (Instr × Mn × Bool × Word64) :=
  let a := k.getS (iA i)
  let b := k.getS (iB i)
  let less := if iU i then decide (a.toNat < b.toNat) else decide (a.toInt < b.toInt)
  [(.br sl c, .br, true, iImm i), (.brr sl c, .brr, true, a + iImm i), (.beq sl c, .beq, decide (a = b), iImm i), (.bne sl c, .bne, decide (a ≠ b), iImm i),
   (.blt sl c, .blt, less, iImm i), (.bge sl c, .bge, !less, iImm i), (.bany sl c, .bany, decide (k.getP (iA i) ≠ 0), iImm i),
   (.ball sl c, .ball, decide (k.getP (iA i) = BitVec.allOnes 64), iImm i)]

/-- A branch to an aligned target goes there when it is taken and to the next word when not, and changes nothing but PC; NOP only goes on. -/
def Sys2Proof.Machine.BranchesGoToTheirTarget : Prop :=
  ∀ (sl : SledId) (c : CoreId) (s s1 : State) (i : IWord) (cmd : Instr) (mn : Mn) (taken : Bool) (target : Word64),
    (cmd, mn, taken, target) ∈ (.nop sl c, .nop, false, 0) :: branchRows sl c (s1.core sl c) i → Issues s sl c mn i s1 → (taken = true → target.toNat % 16 = 0) →
    let k := s1.core sl c
    ∃ t, exec cmd s = .next t ∧ Retires s1 t sl c ∧ t.core sl c = { k with pc := if taken then target else k.pc + 16, srcount := k.srAfter i }

/-- A call goes to its target, read before sD is written, and leaves the address of the next word in sD (R149, R184). -/
def Sys2Proof.Machine.CallsLinkTheNextWord : Prop :=
  ∀ (sl : SledId) (c : CoreId) (s s1 : State) (i : IWord) (cmd : Instr) (mn : Mn) (target : Word64),
    let k := s1.core sl c
    (cmd, mn, target) ∈ [((.call sl c : Instr), Mn.call, iImm i), (.callr sl c, .callr, k.getS (iA i) + iImm i)] → Issues s sl c mn i s1 → target.toNat % 16 = 0 →
    ∃ t, exec cmd s = .next t ∧ Retires s1 t sl c ∧ ScalarResult k (t.core sl c) i (k.pc + 16) 0 target

/-- Branches go to their targets, and calls link the next word. -/
def Obligations.BranchesAndCalls : Prop := Sys2Proof.Machine.BranchesGoToTheirTarget ∧ Sys2Proof.Machine.CallsLinkTheNextWord

/-- CRRD reads each control register of Table 4.9 into sD. -/
def Sys2Proof.Machine.ControlRegistersRead : Prop :=
  ∀ (sl : SledId) (c : CoreId) (s s1 : State) (i : IWord), Issues s sl c .crrd i s1 →
    let k := s1.core sl c
    let d := s1.sled sl
    let x : Ctx := s1.ctx sl
    ∃ t v, exec (.crrd sl c) s = .next t ∧ Retires s1 t sl c ∧ ScalarResult k (t.core sl c) i v 0 (k.pc + 16) ∧
      ∀ p ∈ [(0x000, k.state), (0x001, k.tvec), (0x002, k.epc), (0x003, k.ecause), (0x004, k.eaddr), (0x005, k.estate), (0x006, k.kscratch0), (0x007, k.kscratch1),
          (0x010, k.fpcsr), (0x011, k.srseed), (0x012, k.srcount), (0x020, BitVec.ofNat 64 (96 * sl.val + c.val)), (0x021, BitVec.ofNat 64 k.tenant.val),
          (0x022, BitVec.ofNat 64 (d.clock x - k.clkBase)), (0x023, d.time x), (0x024, d.count)],
        (iImm i).toNat = p.1 → v = p.2

/-- CRWR writes sA to the control register, reserved bits staying 0, and changes no other (Tables 4.9 to 4.11, R174). -/
def Sys2Proof.Machine.ControlRegistersWritten : Prop :=
  ∀ (sl : SledId) (c : CoreId) (s s1 : State) (i : IWord), Issues s sl c .crwr i s1 →
    let k := s1.core sl c
    let v := k.getS (iA i)
    ∃ t, exec (.crwr sl c) s = .next t ∧ Retires s1 t sl c ∧
      ∀ p ∈ [(0x000, { k with state := v &&& 0x3F }), (0x001, { k with tvec := v &&& ~~~0x1FF#64 }), (0x002, { k with epc := v }), (0x003, { k with ecause := v &&& 0xFFFF }),
          (0x004, { k with eaddr := v }), (0x005, { k with estate := v &&& 0x3F }), (0x006, { k with kscratch0 := v }), (0x007, { k with kscratch1 := v }),
          (0x010, { k with fpcsr := v &&& 0x1F }), (0x011, { k with srseed := v }), (0x012, { k with srcount := v })],
        (iImm i).toNat = p.1 → t.core sl c = { p.2 with pc := k.pc + 16 }

/-- CRRD and CRWR, with their privilege and reserved bits. -/
def Obligations.ControlRegistersReadAndWritten : Prop := Sys2Proof.Machine.ControlRegistersRead ∧ Sys2Proof.Machine.ControlRegistersWritten

/-! ### Exceptions -/

/-- TRAP and BREAK take their exception with EADDR = IMM and EPC after them, once nothing is in flight (R125, R173). -/
def Obligations.TrapAndBreakEnterTheHandler : Prop :=
  ∀ (sl : SledId) (c : CoreId) (s s1 : State) (i : IWord) (cmd : Instr) (mn : Mn) (code : Nat),
    (cmd, mn, code) ∈ [((.trap sl c : Instr), Mn.trap, 0x20), (.brk sl c, .brk, 0x21)] → Issues s sl c mn i s1 → (s1.core sl c).flights = [] →
    bit (s1.core sl c).state 1 = false → ∃ t, exec cmd s = .next t ∧ TookTrap s1 t sl c code 0 (iImm i) ((s1.core sl c).pc + 16)

/-- TRET sets STATE to ESTATE and PC to EPC and synchronizes; with EPC[3:0] nonzero it raises ALIGN with EADDR = EPC and changes neither STATE nor PC of itself: outside EXL it
enters the handler, and under EXL the thread ends (R126, R133). -/
def Obligations.TretReturns : Prop :=
  ∀ (sl : SledId) (c : CoreId) (s s1 : State) (i : IWord), Issues s sl c .tret i s1 →
    let k := s1.core sl c
    (k.epc.toNat % 16 = 0 → ∃ t, exec (.tret sl c) s = .next t ∧
      t.core sl c = { k with state := k.estate &&& 0x3F, pc := k.epc, textSeq := (s1.sled sl).textSeq, farSeq := tableOf 16 (s1.ctx sl).marks, srcount := k.srAfter i } ∧
      (∀ e : CoreId, e ≠ c → t.core sl e = s1.core sl e) ∧ SameBytes s1 t) ∧
    (k.epc.toNat % 16 ≠ 0 → k.flights = [] → bit k.state 1 = false → ∃ t, exec (.tret sl c) s = .next t ∧ TookTrap s1 t sl c 6 0 k.epc k.pc) ∧
    (∀ e, k.epc.toNat % 16 ≠ 0 → k.flights = [] → bit k.state 1 = true → k.entry = some e →
      ∃ t, exec (.tret sl c) s = .next t ∧ (t.core sl c).entry = none ∧ ((t.sled sl).ent (dieOf c) e).st = .none)

/-- A branch or call that is taken to a misaligned target raises ALIGN with the target in EADDR and has no effect of its own (R128, R150). -/
def Sys2Proof.Machine.MisalignedTargetsRaiseAlign : Prop :=
  ∀ (sl : SledId) (c : CoreId) (s s1 : State) (i : IWord) (cmd : Instr) (mn : Mn) (target : Word64),
    let k := s1.core sl c
    (cmd, mn, target) ∈ ((branchRows sl c k i).filter fun r => r.2.2.1).map (fun r => (r.1, r.2.1, r.2.2.2)) ++
      [((.call sl c : Instr), Mn.call, iImm i), (.callr sl c, .callr, k.getS (iA i) + iImm i)] → Issues s sl c mn i s1 → target.toNat % 16 ≠ 0 →
    k.flights = [] → bit k.state 1 = false → ∃ t, exec cmd s = .next t ∧ TookTrap s1 t sl c 6 0 target k.pc

/-- RESERVED_OPCODE: a word whose OP and FN name no instruction raises ILLEGAL, with EADDR 0 and EPC at the word (R107, R141). FETCH_FAULT: a fetch that translates to
no instruction raises its fault's code, LEVEL standing in ECAUSE for walk failures (R124, R150). -/
def Sys2Proof.Machine.ReservedWordsAndFetchFaultsTrap : Prop :=
  ∀ (sl : SledId) (c : CoreId) (s s1 : State), (s.sled sl).mayIssue c = true → (s1.core sl c).flights = [] → bit (s1.core sl c).state 1 = false →
    (∀ i, s.fetch sl c = (s1, .word i) → specOf i = none → ∃ t, exec (.reservedOpcode sl c) s = .next t ∧ TookTrap s1 t sl c 7 0 0 (s1.core sl c).pc) ∧
    (∀ f : TFault, s.fetch sl c = (s1, .fault f) → ∃ t s2, exec (.fetchFault sl c) s = .next t ∧ s2 = s1.setSled sl ((s1.sled sl).noteWalk c f) ∧
      TookTrap s2 t sl c f.code (if f.code = 4 ∨ f.code = 5 then f.level else 0) (BitVec.ofNat 64 f.va) (s1.core sl c).pc)

/-- Instructions of the Xehal core with their commands (Tables 5.3 to 5.16), part 1. -/
def Sys2Proof.Machine.xehalRowsA (sl : SledId) (c : CoreId) : List (Instr × Mn) :=
  [(.fcvt sl c, .fcvt), (.movi sl c, .movi), (.wbcast sl c, .wbcast), (.wins sl c, .wins), (.wext sl c, .wext), (.pmov sl c, .pmov),
   (.pset sl c, .pset), (.wmovi sl c, .wmovi), (.ceq sl c, .ceq), (.cne sl c, .cne), (.clt sl c, .clt), (.cle sl c, .cle), (.pand sl c, .pand)]
/-- Instructions of the Xehal core with their commands (Tables 5.3 to 5.16), part 2. -/
def Sys2Proof.Machine.xehalRowsB (sl : SledId) (c : CoreId) : List (Instr × Mn) :=
  [(.por sl c, .por), (.pxor sl c, .pxor), (.pandn sl c, .pandn), (.pnot sl c, .pnot), (.br sl c, .br), (.brr sl c, .brr), (.call sl c, .call),
   (.callr sl c, .callr), (.beq sl c, .beq), (.bne sl c, .bne), (.blt sl c, .blt), (.bge sl c, .bge), (.bany sl c, .bany)]
/-- Instructions of the Xehal core with their commands (Tables 5.3 to 5.16), part 3. -/
def Sys2Proof.Machine.xehalRowsC (sl : SledId) (c : CoreId) : List (Instr × Mn) :=
  [(.ball sl c, .ball), (.ld sl c, .ld), (.st sl c, .st), (.ldx sl c, .ldx), (.stx sl c, .stx), (.pref sl c, .pref), (.amoswap sl c, .amoswap),
   (.amoadd sl c, .amoadd), (.amoand sl c, .amoand), (.amoor sl c, .amoor), (.amoxor sl c, .amoxor), (.amomin sl c, .amomin), (.amomax sl c, .amomax)]
/-- Instructions of the Xehal core with their commands (Tables 5.3 to 5.16), part 4. -/
def Sys2Proof.Machine.xehalRowsD (sl : SledId) (c : CoreId) : List (Instr × Mn) :=
  [(.amocas sl c, .amocas), (.cvt sl c, .cvt), (.wperm sl c, .wperm), (.wrot sl c, .wrot), (.wsel sl c, .wsel), (.wredadd sl c, .wredadd),
   (.wredmin sl c, .wredmin), (.wredmax sl c, .wredmax), (.wld sl c, .wld), (.wst sl c, .wst), (.wldx sl c, .wldx), (.wstx sl c, .wstx),
   (.mma sl c, .mma)]
/-- Instructions of the Xehal core with their commands (Tables 5.3 to 5.16), part 5. -/
def Sys2Proof.Machine.xehalRowsE (sl : SledId) (c : CoreId) : List (Instr × Mn) :=
  [(.mmax sl c, .mmax), (.mmaz sl c, .mmaz), (.tzero sl c, .tzero), (.tld sl c, .tld), (.tst sl c, .tst), (.trd sl c, .trd), (.twr sl c, .twr),
   (.fence sl c, .fence), (.ifence sl c, .ifence), (.cflush sl c, .cflush), (.cinval sl c, .cinval), (.waitwork sl c, .waitwork),
   (.ready sl c, .ready)]
/-- Instructions of the Xehal core with their commands (Tables 5.3 to 5.16), part 6. -/
def Sys2Proof.Machine.xehalRowsF (sl : SledId) (c : CoreId) : List (Instr × Mn) :=
  [(.yield sl c, .yield), (.bellwait sl c, .bellwait), (.tesubmit sl c, .tesubmit), (.teresume sl c, .teresume), (.probesub sl c, .probesub),
   (.deplaunch sl c, .deplaunch), (.nop sl c, .nop), (.crrd sl c, .crrd), (.crwr sl c, .crwr), (.trap sl c, .trap), (.brk sl c, .brk),
   (.tret sl c, .tret)]
/-- The instructions of the Xehal core with their commands. -/
def Sys2Proof.Machine.xehalRows (sl : SledId) (c : CoreId) : List (Instr × Mn) :=
  List.flatten [(intRows sl c).map (fun r => (r.1, r.2.1)), (fpRows sl c).map (fun r => (r.1, r.2.1)), xehalRowsA sl c, xehalRowsB sl c, xehalRowsC sl c, xehalRowsD sl c, xehalRowsE sl c, xehalRowsF sl c]

/-- What precedes an instruction's effect, in the order of R127 and R110, for every instruction: a word that breaks R107 raises ILLEGAL and a kernel-only one in user mode
PERM, each with EADDR 0; a scalar one whose predicate bit 0 is off only moves PC on; one whose registers wait does nothing yet; a poisoned source raises DATA_POISON with the VA
kept for it. -/
def Sys2Proof.Machine.ChecksPrecedeEveryInstruction : Prop :=
  ∀ (sl : SledId) (c : CoreId) (s s1 : State) (i : IWord) (sp : ISpec) (cmd : Instr), (cmd, sp.mn) ∈ xehalRows sl c →
    (s.sled sl).mayIssue c = true → s.fetch sl c = (s1, .word i) → specOf i = some sp →
    let k := s1.core sl c
    let privileged := needsKernel sp i && !bit k.state 0
    let off := decide (sp.pred = .scalar) && !bit (k.pred i) 0
    let traps := fun code ea => k.flights = [] → bit k.state 1 = false → ∃ t, exec cmd s = .next t ∧ TookTrap s1 t sl c code 0 ea k.pc
    (legal sp i = false → traps 7 0) ∧
    (legal sp i = true → privileged = true → traps 2 0) ∧
    (legal sp i = true → privileged = false → off = true → ∃ t, exec cmd s = .next t ∧ Retires s1 t sl c ∧ t.core sl c = { k with pc := k.pc + 16 }) ∧
    (legal sp i = true → privileged = false → off = false → k.busy sp i = true → exec cmd s = .next s) ∧
    (legal sp i = true → privileged = false → off = false → k.busy sp i = false → ∀ va, k.poisoned sp i = some va → traps 0x22 va)

/-- An exception under EXL does not enter the handler: the thread ends, its core is idle, and the record of R133, with the cause and both PCs, is staged for its tenant. -/
def Sys2Proof.Machine.ExceptionUnderExlEndsTheThread : Prop :=
  ∀ (sl : SledId) (c : CoreId) (s s1 : State) (i : IWord) (cmd : Instr) (mn : Mn) (code e : Nat),
    (cmd, mn, code) ∈ [((.trap sl c : Instr), Mn.trap, 0x20), (.brk sl c, .brk, 0x21)] → Issues s sl c mn i s1 → (s1.core sl c).flights = [] →
    bit (s1.core sl c).state 1 = true → (s1.core sl c).entry = some e →
    let k := s1.core sl c
    ∃ t r, exec cmd s = .next t ∧ (t.core sl c).entry = none ∧ ((t.sled sl).ent (dieOf c) e).st = .none ∧
      (t.sled sl).ten k.tenant = ((s1.sled sl).stage (s1.ctx sl) k.tenant r).ten k.tenant ∧ r.code = 7 ∧ r.sev = 2 ∧ r.source = 1 ∧ r.unit.toNat = c.val ∧ r.addr = iImm i ∧
      r.detail0 = k.epc ∧ r.detail1 = BitVec.ofNat 64 (2 ^ 56 * code + k.pc.toNat % 2 ^ 56)

/-- The checks before every instruction, and an exception under EXL. The rank of several poisoned sources is DEDUCED (log 18), and the PC saved under EXL too (log 75). -/
def Obligations.ChecksAndDoubleExceptions : Prop := Sys2Proof.Machine.ChecksPrecedeEveryInstruction ∧ Sys2Proof.Machine.ExceptionUnderExlEndsTheThread

/-! ### Fetch -/

/-- A fetch that meets no conversion changes no byte of memory, no core, no time and nothing of the rack (R106, R121). -/
def Sys2Proof.Machine.FetchChangesNoByte : Prop :=
  ∀ (s : State) (sl : SledId) (c : CoreId), let s1 := (s.fetch sl c).1
    ((s.sled sl).noStall → SameBytes s s1) ∧ (∀ (x : SledId) (e : CoreId), s1.core x e = s.core x e) ∧ s1.now = s.now ∧ s1.rfs = s.rfs ∧ s1.fabric = s.fabric ∧ s1.mail = s.mail ∧ s1.rack = s.rack

/-! ### Loads -/

/-- The address and the span of a scalar access: sA + IMM, with sB for the indexed forms, modulo 2^64. -/
def Sys2Proof.Machine.scalarSpan (k : Core) (i : IWord) (indexed : Bool) : List (Nat × Nat × Nat) :=
  [((k.getS (iA i) + iImm i + if indexed then k.getS (iB i) else 0).toNat, 0, tWidth (iT i) / 8)]

/-- LD and LDX of memory of their own sled read the bytes of their address at issue, put them in flight for sD, and move PC on; no byte of memory and no register
but those changes (R112, R134, R151). -/
def Sys2Proof.Machine.ScalarLoadReadsItsBytes : Prop :=
  ∀ (sl : SledId) (c : CoreId) (s s1 : State) (i : IWord) (cmd : Instr) (mn : Mn) (indexed : Bool) (d : Sled) (p : Piece) (off : Nat),
    (cmd, mn, indexed) ∈ [((.ld sl c : Instr), Mn.ld, false), (.ldx sl c, .ldx, true)] → Issues s sl c mn i s1 →
    let k := s1.core sl c
    let x : Ctx := s1.ctx sl
    let size := tWidth (iT i) / 8
    let s2 := s1.setSled sl d
    (s1.sled sl).plan x c .load size (if size = 4 ∨ size = 8 then none else some 6) (scalarSpan k i indexed) = (d, .inl [p]) → d.target x p.pa = .mem off →
    p.pos = 0 → p.len = size → s2.accessWaits sl c [p] = false →
    ∃ t f, exec cmd s = .next t ∧ f.dst = (if iD i = 63 then .none else .s (iD i)) ∧ f.size = size ∧ f.signed = (decide (iT i < 3) && !iU i) ∧ f.asks = [] ∧
      (∀ j, j < size → f.data.extractLsb' (8 * j) 8 = d.byte (off + j)) ∧ (f.bad = none ↔ ∀ j, j < size → d.badByte (off + j) = false) ∧
      t.core sl c = { d.core c with flights := (d.core c).flights ++ [f], nextId := (d.core c).nextId + 1, pc := k.pc + 16, srcount := (d.core c).srAfter i } ∧
      (∀ e : CoreId, e ≠ c → t.core sl e = d.core e) ∧ SameBytes s2 t

/-- A wide or tile load with an active part takes each piece of its spans, at issue from its own sled's memory, and is in flight with the bytes laid over the old register; the
lanes it counts, and the pieces of other sleds and of config space, are those of `loadPiece` (R109, R112, R154, R160). -/
def Sys2Proof.Machine.WideLoadsReadTheirPieces : Prop :=
  ∀ (sl : SledId) (c : CoreId) (s s1 : State) (i : IWord) (cmd : Instr) (mn : Mn) (f : Flight) (align : Nat) (spans : List (Nat × Nat × Nat)) (lanes : Nat) (d : Sled)
    (ps : List Piece) (offs : Piece → Nat),
    let k := s1.core sl c
    let w := tWidth (iT i)
    let n := 2048 / w
    let on := elemOn (k.pred i) w
    let row := fun r => bit (k.pred i) r
    let wide : Flight := { dst := .w (iD i), size := 256, data := (k.getW (iD i)).zeroExtend 8192, whole := (List.range n).all on }
    let tile : Flight := { dst := .t (iD i), size := 1024, data := k.getT (iD i), whole := decide ((List.range 16).countP row = 16) }
    let x : Ctx := s1.ctx sl
    let s2 := s1.setSled sl d
    (cmd, mn, f, align, spans, lanes) ∈
      [((.wld sl c : Instr), Mn.wld, wide, w / 8, runSpans (k.address i false) (w / 8) n on, activeLanes (k.pred i) w n),
       (.wldx sl c, .wldx, wide, w / 8, k.indexSpans i, activeLanes (k.pred i) w n),
       (.tld sl c, .tld, tile, 4, runSpans (k.address i false) 64 16 row, 16 * (List.range 16).countP row)] → Issues s sl c mn i s1 → spans ≠ [] →
    (s1.sled sl).plan x c .load align (some 6) spans = (d, .inl ps) → s2.accessWaits sl c ps = false →
    let r := ps.foldl (State.loadPiece sl c) (s2, { f with id := (d.core c).nextId, issued := s1.now })
    ∃ t, exec cmd s = .next t ∧ t = ((r.1.fly sl c r.2).tally sl k.tenant 7 lanes).retire sl c k.tenant i (k.pc + 16) ∧
      ((∀ p ∈ ps, d.target x p.pa = .mem (offs p)) → ∃ g : Flight,
        t.core sl c = { d.core c with flights := (d.core c).flights ++ [g], nextId := (d.core c).nextId + 1, pc := k.pc + 16, srcount := (d.core c).srAfter i } ∧
        g.dst = f.dst ∧ g.whole = f.whole ∧ g.asks = [] ∧
        (∀ p ∈ ps, ∀ j, j < p.len → g.data.extractLsb' (8 * (p.pos + j)) 8 = d.byte (offs p + j)) ∧
        (∀ b, b < 1024 → (∀ p ∈ ps, b < p.pos ∨ p.pos + p.len ≤ b) → g.data.extractLsb' (8 * b) 8 = f.data.extractLsb' (8 * b) 8) ∧
        (g.bad = none ↔ ∀ p ∈ ps, ∀ j, j < p.len → d.badByte (offs p + j) = false) ∧
        (∀ e : CoreId, e ≠ c → t.core sl e = d.core e) ∧ SameBytes s2 t)

/-- Loads, scalar and wide, take the bytes of their addresses. That a load reads memory at its issue is the model's choice (log 70). -/
def Obligations.LoadsReadTheirBytes : Prop := Sys2Proof.Machine.ScalarLoadReadsItsBytes ∧ Sys2Proof.Machine.WideLoadsReadTheirPieces

/-- LOAD_DATA_RETURN: an operation with nothing still to come writes its register, scalars extended, and is in flight no more; an uncorrectable word poisons the register
with its VA, and a write of the whole register clears older poison (R114, R143). Nothing else changes. -/
def Sys2Proof.Machine.LoadCompletionWritesItsRegister : Prop :=
  ∀ (sl : SledId) (c : CoreId) (n : Nat) (s : State) (f : Flight), (s.sled sl).ended = false → (s.core sl c).flight n = some f → f.asks = [] →
    let k := s.core sl c
    let fs := k.flights.filter fun g => decide (g.id ≠ f.id)
    ∃ t, exec (.loadDataReturn sl c n) s = .next t ∧ OnlyCore s t sl c ∧ (t.core sl c).flights = fs ∧ (t.core sl c).pc = k.pc ∧ (t.core sl c).p = k.p ∧
      (∀ m, f.dst = .s m → m ≠ 63 → (t.core sl c).getS m = extend (8 * f.size) f.signed (f.data.toNat % 2 ^ (8 * f.size)) ∧
        (t.core sl c).poison .s m = f.bad.map (·.2) ∧ (∀ j, j ≠ m → (t.core sl c).getS j = k.getS j) ∧ (t.core sl c).w = k.w ∧ (t.core sl c).t = k.t) ∧
      (∀ m, f.dst = .w m → (t.core sl c).getW m = f.data.truncate 2048 ∧ bit (t.core sl c).state 4 = true ∧
        (t.core sl c).poison .w m = (if f.bad.isSome then f.bad.map (·.2) else if f.whole then none else k.poison .w m) ∧ (∀ j, j ≠ m → (t.core sl c).getW j = k.getW j) ∧
        (t.core sl c).s = k.s ∧ (t.core sl c).t = k.t) ∧
      (∀ m, f.dst = .t m → (t.core sl c).getT m = f.data ∧ bit (t.core sl c).state 5 = true ∧
        (t.core sl c).poison .t m = (if f.bad.isSome then f.bad.map (·.2) else if f.whole then none else k.poison .t m) ∧ (∀ j, j ≠ m → (t.core sl c).getT j = k.getT j) ∧
        (t.core sl c).s = k.s ∧ (t.core sl c).w = k.w) ∧
      (f.dst = .none → (t.core sl c) = { k with flights := fs })

/-- A fetch changes no byte, and a load that returns writes its register. That a load writes its register at a command of its own is the model's choice (log 70). -/
def Obligations.FetchesAndReturningLoads : Prop := Sys2Proof.Machine.FetchChangesNoByte ∧ Sys2Proof.Machine.LoadCompletionWritesItsRegister

/-- A load or store that faults takes its exception and accesses nothing: misalignment, then translation, then permission, with the lowest address (R113, R127, R135). -/
def Sys2Proof.Machine.FaultingAccessesTrap : Prop :=
  ∀ (sl : SledId) (c : CoreId) (s s1 : State) (i : IWord) (cmd : Instr) (mn : Mn) (a : Acc) (indexed : Bool) (d : Sled) (f : TFault),
    (cmd, mn, a, indexed) ∈ [((.ld sl c : Instr), Mn.ld, Acc.load, false), (.ldx sl c, .ldx, .load, true), (.st sl c, .st, .store, false), (.stx sl c, .stx, .store, true)] →
    Issues s sl c mn i s1 →
    let k := s1.core sl c
    let size := tWidth (iT i) / 8
    (s1.sled sl).plan (s1.ctx sl) c a size (if size = 4 ∨ size = 8 then none else some 6) (scalarSpan k i indexed) = (d, .inr f) →
    let s2 := s1.setSled sl (d.noteWalk c f)
    (s2.core sl c).flights = [] → bit (s2.core sl c).state 1 = false →
    ∃ t, exec cmd s = .next t ∧ TookTrap s2 t sl c f.code (if f.code = 4 ∨ f.code = 5 then f.level else 0) (BitVec.ofNat 64 f.va) (s2.core sl c).pc

/-- Where an instruction traps: misaligned targets, reserved words, fetches and accesses that fault. The rank among several faults of one access is DEDUCED (log 22). -/
def Obligations.InstructionsTrap : Prop := Sys2Proof.Machine.MisalignedTargetsRaiseAlign ∧ Sys2Proof.Machine.ReservedWordsAndFetchFaultsTrap ∧ Sys2Proof.Machine.FaultingAccessesTrap

/-! ### Stores and atomics -/

/-- The stores of a core with the bytes each stores, its alignment, the code a Device page raises, its spans, and the lanes it counts (none for the scalar forms)
(Tables 5.8, 5.10, 5.12). -/
def Sys2Proof.Machine.storeRows (sl : SledId) (c : CoreId) (k : Core) (i : IWord) : List (Instr × Mn × List Byte × Nat × Option Nat × List (Nat × Nat × Nat)) :=
  let w := tWidth (iT i)
  let size := w / 8
  let n := 2048 / w
  let dev := if size = 4 ∨ size = 8 then none else some 6
  [(.st sl c, .st, toBytes (k.getS (iB i)) size, size, dev, scalarSpan k i false), (.stx sl c, .stx, toBytes (k.getS (iC i)) size, size, dev, scalarSpan k i true),
   (.wst sl c, .wst, toBytes (k.getW (iB i)) 256, size, some 6, runSpans (k.address i false) size n (elemOn (k.pred i) w)),
   (.wstx sl c, .wstx, toBytes (k.getW (iC i)) 256, size, some 6, k.indexSpans i),
   (.tst sl c, .tst, toBytes (k.getT (iB i)) 1024, 4, some 6, runSpans (k.address i false) 64 16 fun r => bit (k.pred i) r)]

/-- A store to its own sled's memory writes the bytes of its pieces, the last piece winning where they overlap (R155), and no other byte of any sled, where its caches agree with
memory; of its core it moves PC and SRCOUNT alone, and it changes no other core. -/
def Sys2Proof.Machine.StoresWriteOnlyTheirBytes : Prop :=
  ∀ (sl : SledId) (c : CoreId) (s s1 : State) (i : IWord) (cmd : Instr) (mn : Mn) (bs : List Byte) (align : Nat) (dev : Option Nat) (spans : List (Nat × Nat × Nat)) (d : Sled)
    (ps : List Piece) (offs : Piece → Nat), (cmd, mn, bs, align, dev, spans) ∈ storeRows sl c (s1.core sl c) i → Issues s sl c mn i s1 → spans ≠ [] →
    let k := s1.core sl c
    let x : Ctx := s1.ctx sl
    let s2 := s1.setSled sl d
    (s1.sled sl).plan x c .store align dev spans = (d, .inl ps) → s2.accessWaits sl c ps = false → (k.remotePending && ps.any (s2.tailAt sl)) = false →
    (∀ p ∈ ps, d.target x p.pa = .mem (offs p)) →
    ∃ t, exec cmd s = .next t ∧
      (∀ (n j : Nat) (p : Piece), ps[n]? = some p → j < p.len → (∀ (m : Nat) (q : Piece), n < m → ps[m]? = some q → offs p + j < offs q ∨ offs q + q.len ≤ offs p + j) →
        (t.sled sl).byte (offs p + j) = bs.getD (p.pos + j) 0) ∧
      (d.agrees → ∀ a, (∀ p ∈ ps, a < offs p ∨ offs p + p.len ≤ a) → (t.sled sl).byte a = d.byte a) ∧
      (∀ (y : SledId), y ≠ sl → t.sled y = s1.sled y) ∧ t.core sl c = { d.core c with pc := k.pc + 16, srcount := (d.core c).srAfter i } ∧
      (∀ e : CoreId, e ≠ c → t.core sl e = d.core e)

/-- A scalar store leaves the low bytes of its register, little-endian, at its address (R2, R151). -/
def Sys2Proof.Machine.ScalarStoreLeavesItsValue : Prop :=
  ∀ (sl : SledId) (c : CoreId) (s s1 : State) (i : IWord) (cmd : Instr) (mn : Mn) (indexed : Bool) (v : Word64) (d : Sled) (p : Piece) (off : Nat),
    let k := s1.core sl c
    let x : Ctx := s1.ctx sl
    let size := tWidth (iT i) / 8
    (cmd, mn, indexed, v) ∈ [((.st sl c : Instr), Mn.st, false, k.getS (iB i)), (.stx sl c, .stx, true, k.getS (iC i))] → Issues s sl c mn i s1 →
    (s1.sled sl).plan x c .store size (if size = 4 ∨ size = 8 then none else some 6) (scalarSpan k i indexed) = (d, .inl [p]) → d.target x p.pa = .mem off → p.pos = 0 →
    p.len = size → (s1.setSled sl d).accessWaits sl c [p] = false → (k.remotePending && (s1.setSled sl d).tailAt sl p) = false →
    ∃ t, exec cmd s = .next t ∧ ∀ j, j < size → (t.sled sl).byte (off + j) = v.extractLsb' (8 * j) 8

/-- Stores write the bytes of their addresses and no other. Addresses of wide accesses wrap, as DEDUCED in log 74; that a store is performed at its issue is the model's choice (log 70). -/
def Obligations.StoresWriteTheirBytes : Prop := Sys2Proof.Machine.StoresWriteOnlyTheirBytes ∧ Sys2Proof.Machine.ScalarStoreLeavesItsValue

/-- The atomics with the value each leaves in memory, from the old value `o`, sB and sC cut to the width (Table 5.9). -/
def Sys2Proof.Machine.amoRows (sl : SledId) (c : CoreId) (w : Nat) (uns : Bool) (o b cc : Nat) : List (Instr × Mn × Nat) :=
  [(.amoswap sl c, .amoswap, b), (.amoadd sl c, .amoadd, (o + b) % 2 ^ w), (.amoand sl c, .amoand, o &&& b), (.amoor sl c, .amoor, o ||| b),
   (.amoxor sl c, .amoxor, o ^^^ b), (.amomin sl c, .amomin, if ival w uns b < ival w uns o then b else o),
   (.amomax sl c, .amomax, if ival w uns o < ival w uns b then b else o), (.amocas sl c, .amocas, if o = b then cc else o)]

/-- An atomic on its own sled reads the old value for sD and leaves the new one in memory, in one step; no other byte changes where the caches agree with memory. With an
uncorrectable word it stores nothing, and its operation carries the poison (R153). -/
def Obligations.AtomicsReplaceTheirWord : Prop :=
  ∀ (sl : SledId) (c : CoreId) (s s1 : State) (i : IWord) (cmd : Instr) (mn : Mn) (new : Nat) (d : Sled) (p : Piece) (off : Nat),
    let k := s1.core sl c
    let x : Ctx := s1.ctx sl
    let w := tWidth (iT i)
    let size := w / 8
    let old := bytesNat ((List.range size).map fun j => d.byte (off + j))
    (cmd, mn, new) ∈ amoRows sl c w (iU i) old ((k.getS (iB i)).toNat % 2 ^ w) ((k.getS (iC i)).toNat % 2 ^ w) → Issues s sl c mn i s1 →
    (s1.sled sl).plan x c .store size (some 2) (scalarSpan k i false) = (d, .inl [p]) → d.target x p.pa = .mem off → p.pos = 0 → p.len = size →
    (s1.setSled sl d).accessWaits sl c [p] = false → (k.remotePending && (s1.setSled sl d).tailAt sl p) = false →
    ∃ t f, exec cmd s = .next t ∧ f.dst = (if iD i = 63 then .none else .s (iD i)) ∧ f.size = size ∧ f.data.toNat % 2 ^ w = old ∧ f.signed = !iU i ∧ f.asks = [] ∧
      t.core sl c = { d.core c with flights := (d.core c).flights ++ [f], nextId := (d.core c).nextId + 1, pc := k.pc + 16, srcount := (d.core c).srAfter i } ∧
      ((∀ j, j < size → d.badByte (off + j) = false) → f.bad = none ∧ (∀ j, j < size → (t.sled sl).byte (off + j) = (BitVec.ofNat 64 new).extractLsb' (8 * j) 8) ∧
        (d.agrees → ∀ a, a < off ∨ off + size ≤ a → (t.sled sl).byte a = d.byte a)) ∧
      ((∃ j, j < size ∧ d.badByte (off + j) = true) → f.bad.isSome = true ∧ SameBytes (s1.setSled sl d) t)

/-! ### Ordering and cache instructions -/

/-- FENCE and IFENCE wait for answers of other sleds; then FENCE only goes on and IFENCE synchronizes the core's text of every sled (R122, R124). -/
def Sys2Proof.Machine.FencesWaitForOtherSleds : Prop :=
  ∀ (sl : SledId) (c : CoreId) (s s1 : State) (i : IWord) (cmd : Instr) (mn : Mn) (sync : Bool),
    (cmd, mn, sync) ∈ [((.fence sl c : Instr), Mn.fence, false), (.ifence sl c, .ifence, true)] → Issues s sl c mn i s1 →
    let k := s1.core sl c
    let open' := k.flights.any fun f => decide (f.asks ≠ [])
    (open' = true → exec cmd s = .next s) ∧
    (open' = false → ∃ t, exec cmd s = .next t ∧ SameBytes s1 t ∧ (∀ e : CoreId, e ≠ c → t.core sl e = s1.core sl e) ∧
      t.core sl c = { k with pc := k.pc + 16, srcount := k.srAfter i, textSeq := if sync then (s1.sled sl).textSeq else k.textSeq, farSeq := if sync then tableOf 16 (s1.ctx sl).marks else k.farSeq })

/-- CFLUSH and CINVAL work over the pages of [sA, sA + sB) below 2^55 and go on as one operation in flight, or, where the write-back of a line must wait, do what they can and issue
again; CFLUSH changes no byte that a core reads (R161, R162). PREF goes on, and changes no byte and no register (R152). -/
def Sys2Proof.Machine.CacheOperationsGoOn : Prop :=
  ∀ (sl : SledId) (c : CoreId) (s s1 : State) (i : IWord),
    let k := s1.core sl c
    let x : Ctx := s1.ctx sl
    let lo := (k.getS (iA i)).toNat
    let pages := fun discard => Sled.cachePages x k.tenant discard (min (2 ^ 55) (lo + (k.getS (iB i)).toNat)) (2 ^ 40) lo (s1.sled sl, false)
    (∀ cmd mn discard, (cmd, mn, discard) ∈ [((.cflush sl c : Instr), Mn.cflush, false), (.cinval sl c, .cinval, true)] → Issues s sl c mn i s1 → let r := pages discard
      (r.2 = false → ∃ t, exec cmd s = .next t ∧ t = ((s1.setSled sl r.1).fly sl c { (default : Flight) with id := k.nextId, issued := s1.now }).retire sl c k.tenant i (k.pc + 16)) ∧
      (r.2 = true → ∃ t, exec cmd s = .next t ∧ t = s1.setSled sl r.1 ∧ t.core sl c = k)) ∧
    (Issues s sl c .cflush i s1 → (s1.sled sl).noStall → ∃ t, exec (.cflush sl c) s = .next t ∧ SameBytes s1 t) ∧
    (Issues s sl c .pref i s1 → (s1.sled sl).noStall → ∃ t, exec (.pref sl c) s = .next t ∧ SameBytes s1 t ∧ t.core sl c = { k with pc := k.pc + 16, srcount := k.srAfter i } ∧
      ∀ e : CoreId, e ≠ c → t.core sl e = s1.core sl e)

/-- Fences and cache operations. What a fence waits for is what the model keeps in flight (log 70), and PREF and the cache operations rest on log 72, log 73 and log 126. -/
def Obligations.FencesAndCacheOperations : Prop := Sys2Proof.Machine.FencesWaitForOtherSleds ∧ Sys2Proof.Machine.CacheOperationsGoOn

/-! ### Scheduling and submission -/

/-- WAITWORK sets the core's mask; a pending wake lets it go on and is taken; else with nothing in flight it parks the thread, or ends it when IMM[8] is 0, and the core is
idle (R165, R166, R228). -/
def Sys2Proof.Machine.WaitworkParksOrEnds : Prop :=
  ∀ (sl : SledId) (c : CoreId) (s s1 : State) (i : IWord) (e : Nat), Issues s sl c .waitwork i s1 → (s1.core sl c).entry = some e →
    let k := s1.core sl c
    let v := (s1.sled sl).ent (dieOf c) e
    let park := bit (iImm i) 8
    ∃ t, exec (.waitwork sl c) s = .next t ∧
      (park = true → v.wake = true → t.core sl c = { k with mask := some (BitVec.ofNat 8 (fld (iImm i) 7 0)), pc := k.pc + 16, srcount := k.srAfter i } ∧
        (t.sled sl).ent (dieOf c) e = { v with wake := false }) ∧
      ((park && v.wake) = false → k.flights ≠ [] → t = s) ∧
      ((park && v.wake) = false → k.flights = [] → (t.core sl c).entry = none ∧ (t.core sl c).mask = some (BitVec.ofNat 8 (fld (iImm i) 7 0)) ∧
        ((t.sled sl).ent (dieOf c) e).st = if park then .parked else .none)

/-- YIELD makes its thread ready behind its equals and frees the core (R167); BELLWAIT goes on where the work window has started, else its thread is blocked awaiting that
count (R51, R168). Each waits for operations in flight. -/
def Sys2Proof.Machine.YieldAndBellwait : Prop :=
  ∀ (sl : SledId) (c : CoreId) (s s1 : State) (i : IWord) (e : Nat), (s1.core sl c).entry = some e →
    let k := s1.core sl c
    let n := k.getS (iA i) + iImm i
    let started := n.toNat < (s1.sled sl).count.toNat ∨ (n = (s1.sled sl).count ∧ (s1.sled sl).bell.work = true)
    (Issues s sl c .yield i s1 → k.flights ≠ [] → exec (.yield sl c) s = .next s) ∧
    (Issues s sl c .yield i s1 → k.flights = [] → ∃ t, exec (.yield sl c) s = .next t ∧ (t.core sl c).entry = none ∧
      ((t.sled sl).ent (dieOf c) e).st = .ready ∧ e ∈ (t.sled sl).readyList (dieOf c) ((s1.sled sl).ent (dieOf c) e).channel) ∧
    (Issues s sl c .bellwait i s1 → started → ∃ t, exec (.bellwait sl c) s = .next t ∧ Retires s1 t sl c ∧ t.core sl c = { k with pc := k.pc + 16, srcount := k.srAfter i }) ∧
    (Issues s sl c .bellwait i s1 → ¬started → k.flights = [] → ∃ t, exec (.bellwait sl c) s = .next t ∧ (t.core sl c).entry = none ∧
      ((t.sled sl).ent (dieOf c) e).st = .blocked ∧ ((t.sled sl).ent (dieOf c) e).awaits = n)

/-- WAITWORK, YIELD and BELLWAIT give the core up or go on. -/
def Obligations.WaitingInstructions : Prop := Sys2Proof.Machine.WaitworkParksOrEnds ∧ Sys2Proof.Machine.YieldAndBellwait

/-- READY and the submissions wait for older accesses of other sleds, perform their operation and write its status to sD (Tables 5.13, 5.15); the refusals of DEPLAUNCH's
IMM and sA, of TESUBMIT's and PROBESUB's IMM and count, are BAD_ARGS and change nothing. -/
def Sys2Proof.Machine.SubmissionsReturnTheirStatus : Prop :=
  ∀ (sl : SledId) (c : CoreId) (s s1 : State) (i : IWord) (cmd : Instr) (mn : Mn) (r : Sled × Nat),
    let k := s1.core sl c
    let d := s1.sled sl
    let x : Ctx := s1.ctx sl
    let va := (k.getS (iA i)).toNat
    let count := (k.getS (iB i)).toNat
    let first := fld (iImm i) 8 0
    let many := fld (iImm i) 25 16
    let badBatch := count = 0 ∨ 4096 < count ∨ va % 64 ≠ 0 ∨ fld (iImm i) 63 16 ≠ 0
    let badLaunch := many = 0 ∨ 512 < many ∨ 512 < first + many ∨ va % 64 ≠ 0 ∨ fld (iImm i) 15 9 ≠ 0 ∨ fld (iImm i) 63 26 ≠ 0
    (cmd, mn, r) ∈ [((.tesubmit sl c : Instr), Mn.tesubmit, submitRays hitRing c x d k i), (.probesub sl c, .probesub, submitRays resRing c x d k i),
      (.teresume sl c, .teresume, submitResume x d k i), (.deplaunch sl c, .deplaunch, submitLaunch c x d k i)] → Issues s sl c mn i s1 →
    (k.remotePending = true → exec cmd s = .next s) ∧
    (k.remotePending = false → ∃ t, exec cmd s = .next t ∧ OnlyCore (s1.setSled sl r.1) t sl c ∧ ScalarResult (r.1.core c) (t.core sl c) i (BitVec.ofNat 64 r.2) 0 (k.pc + 16)) ∧
    (mn = .tesubmit ∨ mn = .probesub → badBatch → r = (d, 3)) ∧ (mn = .deplaunch → badLaunch → r = (d, 3)) ∧ (mn = .teresume → iImm i ≠ 0 → r.1 = d ∧ (r.2 = 3 ∨ r.2 = 4))

/-- READY posts to or creates the thread whose TCB is at sA and writes ACCEPTED, REFUSED or BAD_ARGS; a translation fault is its exception (R166, R230, R246). -/
def Sys2Proof.Machine.ReadyReturnsItsStatus : Prop :=
  ∀ (sl : SledId) (c : CoreId) (s s1 : State) (i : IWord) (r : Sled × ReadyRes), Issues s sl c .ready i s1 → (s1.core sl c).remotePending = false →
    let k := s1.core sl c
    r = (s1.sled sl).ready (s1.ctx sl) k.tenant (k.getS (iA i)).toNat ((s1.sled sl).threadItem c) false →
    (∀ code, (r.2, code) ∈ [(ReadyRes.accepted, 0), (.existing, 0), (.refused, 1), (.badArgs, 3)] →
      ∃ t, exec (.ready sl c) s = .next t ∧ OnlyCore (s1.setSled sl r.1) t sl c ∧ ScalarResult (r.1.core c) (t.core sl c) i (BitVec.ofNat 64 code) 0 (k.pc + 16)) ∧
    (∀ f, r.2 = .fault f → let s2 := s1.setSled sl (r.1.noteWalk c f)
      (s2.core sl c).flights = [] → bit (s2.core sl c).state 1 = false →
      ∃ t, exec (.ready sl c) s = .next t ∧ TookTrap s2 t sl c f.code (if f.code = 4 ∨ f.code = 5 then f.level else 0) (BitVec.ofNat 64 f.va) (s2.core sl c).pc)

/-- The submissions to other units and READY return their status. The order of the checks of READY (log 25), the wait of a submission (log 71) and a nonzero IMM of TERESUME (log 76) are DEDUCED. -/
def Obligations.SubmissionsAndReady : Prop := Sys2Proof.Machine.SubmissionsReturnTheirStatus ∧ Sys2Proof.Machine.ReadyReturnsItsStatus

/-- SCHED_INTERRUPT pre-empts a running thread with nothing in flight and SM 0; SM_DEFER_TIMEOUT does so under SM, 2 µs after the request: the core is idle and the thread
ready in its list (R129, R238, R255). DISPATCH gives an idle core the thread of its search where no other core takes it: it is RUNNING there, with nothing in flight, PC aligned and the text synchronized (R234, R235). -/
def Sys2Proof.Machine.PreemptionAndDispatch : Prop :=
  ∀ (s : State) (sl : SledId) (c : CoreId) (e : Nat) (q : SchedReq), let d := s.sled sl; let k := d.core c; let die := dieOf c
    (d.ended = false → k.sched = some q → k.entry = some e → k.halted = false → k.flights = [] → bit k.state 2 = false →
      ∃ t, exec (.schedInterrupt sl c) s = .next t ∧ (t.core sl c).entry = none ∧ ((t.sled sl).ent die e).st = .ready ∧ e ∈ (t.sled sl).readyList die (d.ent die e).channel) ∧
    (d.ended = false → k.sched = some q → k.entry = some e → k.halted = false → k.flights = [] → bit k.state 2 = true →
      ∃ t, exec (.smDeferTimeout sl c) s = .next t ∧ t.now = max s.now (q.since + 2000) ∧ (t.core sl c).entry = none ∧ ((t.sled sl).ent die e).st = .ready) ∧
    (d.nextFor c = some e → (∀ o : CoreId, o ≠ c → dieOf o = die → d.nextFor o ≠ some e) →
      ∃ t, exec (.dispatch sl c) s = .next t ∧ (t.core sl c).entry = some e ∧ (t.core sl c).tenant = (d.ent die e).tenant ∧ ((t.sled sl).ent die e).st = .running ∧
        (t.core sl c).sched = none ∧ (t.core sl c).flights = [] ∧ (t.core sl c).textSeq = (t.sled sl).textSeq ∧ ((t.core sl c).pc.toNat % 16 = 0))

/-- SCHED_EVENT to the handle of a thread of its tenant wakes a parked thread and marks a running or blocked one; any other handle counts a stray event (R239, R240). -/
def Sys2Proof.Machine.EventsWakeTheirThread : Prop :=
  ∀ (s : State) (sl : SledId) (tn : TenantId) (kind : Fin 8) (h : Word32), let d := s.sled sl; let die := fld h 12 12; let e := fld h 11 0; let v := d.ent die e
    let stray := fld h 31 24 = 0 ∨ fld h 31 24 ≠ v.gen.toNat ∨ fld h 23 13 ≠ 0 ∨ v.st = .none ∨ v.tenant ≠ tn
    ∃ t, exec (.schedEvent sl tn kind h) s = .next t ∧ (stray → t = s.setSled sl (d.bump32 .schStray die)) ∧
      (¬stray → v.st = .parked → ((t.sled sl).ent die e).st = .ready ∧ e ∈ (t.sled sl).readyList die v.channel) ∧
      (¬stray → v.st = .running ∨ v.st = .blocked → (t.sled sl).ent die e = { v with wake := true }) ∧
      (¬stray → v.st = .ready → (t.sled sl).ent die e = v)

/-- Pre-emption, dispatch and events. When a pending pre-emption stops issue is DEDUCED (log 19). -/
def Obligations.SchedulingAndEvents : Prop := Sys2Proof.Machine.PreemptionAndDispatch ∧ Sys2Proof.Machine.EventsWakeTheirThread

/-! ### Accesses to other sleds -/

/-- Frames by kind. -/
def Sys2Proof.Machine.isRdReq (b : Payload) : Bool := match b with | .rdReq _ _ _ _ => true | _ => false
def Sys2Proof.Machine.isRdRsp (b : Payload) : Bool := match b with | .rdRsp _ _ _ _ _ => true | _ => false
def Sys2Proof.Machine.isWr (b : Payload) : Bool := match b with | .wr _ _ => true | _ => false
def Sys2Proof.Machine.isWrAck (b : Payload) : Bool := match b with | .wrAck _ => true | _ => false
def Sys2Proof.Machine.isAmo (b : Payload) : Bool := match b with | .amo _ _ _ _ _ _ _ => true | _ => false
def Sys2Proof.Machine.isAmoRsp (b : Payload) : Bool := match b with | .amoRsp _ _ _ _ => true | _ => false

/-- RD_REQ, WR and AMO perform the oldest request of their kind between two sleds in service, where no conversion runs at the target, and answer it: a load of memory with the bytes
of the sled that serves it, a store with an acknowledgement, an atomic with the old value; the frame leaves the fabric and its answer is the last on it (R208, R209, R225, R391). With no
request of a core there, WR performs a unit's oldest posted store, which is posted no more. No other byte changes where the target's caches agree with memory. -/
def Sys2Proof.Machine.RequestsAreServedAndAnswered : Prop :=
  ∀ (s : State) (src dst : SledId) (n : Nat) (f : Frame), let u := s.takeFrame n; s.bothUp src dst = true → (s.sled dst).noStall →
    (∀ off len pos va, s.frameAt src dst isRdReq = some (n, f) → f.body = .rdReq off len pos va → off < devBase → s.answers dst off = true → s.inService (s.server dst off) = true →
      let at' := s.server dst off
      ∃ t, exec (.rdReq src dst) s = .next t ∧ SameBytes s t ∧
        t.fabric = u.fabric ++ [⟨f.dst, f.src, f.core, f.tenant, f.id, .rdRsp pos va ((List.range len).map fun j => (s.sled at').byte (off + j))
          ((List.range len).map fun j => (s.sled at').badByte (off + j)) false⟩]) ∧
    (∀ off bs, s.frameAt src dst isWr = some (n, f) → f.body = .wr off bs → off < devBase → s.takesStore dst off = true →
      ∃ t, exec (.wr src dst) s = .next t ∧ t.fabric = u.fabric ++ [⟨f.dst, f.src, f.core, f.tenant, f.id, .wrAck false⟩] ∧
        (∀ j, j < bs.length → (t.sled dst).byte (off + j) = bs.getD j 0) ∧ ((s.sled dst).agrees → ∀ a, a < off ∨ off + bs.length ≤ a → (t.sled dst).byte a = (s.sled dst).byte a) ∧
        ∀ y, y ≠ dst → t.sled y = s.sled y) ∧
    (∀ op off size uns b c va, s.frameAt src dst isAmo = some (n, f) → f.body = .amo op off size uns b c va → s.takesStore dst off = true →
      ∃ t r, exec (.amo src dst) s = .next t ∧ r = ((s.sled dst).tallyMiss f.tenant off size).amoAt (s.ctx dst) op off size uns b c ∧ t.sled dst = r.1 ∧
        t.fabric = u.fabric ++ [⟨f.dst, f.src, f.core, f.tenant, f.id, .amoRsp r.2.1 va r.2.2 false⟩]) ∧
    (∀ off bs i p, src ≠ dst → s.frameAt src dst isWr = none → s.postAt src dst isWr = some (i, p) → p.body = .wr off bs → s.takesStore dst off = true →
      ∃ t, exec (.wr src dst) s = .next t ∧ t.fabric = s.fabric ∧ (t.sled src).posts = (s.sled src).posts.eraseIdx i ∧ (∀ j, j < bs.length → (t.sled dst).byte (off + j) = bs.getD j 0))

/-- A request that cannot be served is answered with a failure and stores nothing: between sleds that do not reach each other, to an offset that its target does not answer, or, of a
store or an atomic, one that the target does not take (R209, R391, R401). -/
def Sys2Proof.Machine.RequestsOutOfServiceFail : Prop :=
  ∀ (s : State) (src dst : SledId) (n : Nat) (f : Frame), let u := s.takeFrame n; let apart := s.bothUp src dst = false
    (∀ off len pos va, s.frameAt src dst isRdReq = some (n, f) → f.body = .rdReq off len pos va → apart ∨ (off < devBase ∧ (s.answers dst off = false ∨ s.inService (s.server dst off) = false)) →
      exec (.rdReq src dst) s = .next (u.answerFrame f (.rdRsp pos va [] [] true))) ∧
    (∀ off bs, s.frameAt src dst isWr = some (n, f) → f.body = .wr off bs → apart ∨ (off < devBase ∧ s.takesStore dst off = false) →
      exec (.wr src dst) s = .next (u.answerFrame f (.wrAck true))) ∧
    (∀ op off size uns b c va, s.frameAt src dst isAmo = some (n, f) → f.body = .amo op off size uns b c va → apart ∨ s.takesStore dst off = false →
      exec (.amo src dst) s = .next (u.answerFrame f (.amoRsp 0 va false true)))

/-- RD_RSP, WR_ACK and AMO_RSP take their frame off the fabric and, with the last part of its operation, complete it at the core that asked; REMOTE_ACCESS_TIMEOUT fails every
part still open, 100 µs after the operation issued, and no later answer finds it (R208, R209). -/
def Sys2Proof.Machine.AnswersCompleteTheirOperation : Prop :=
  ∀ (s : State) (src dst : SledId) (n : Nat) (f : Frame) (g : Flight), let k := s.core dst f.core; k.flight f.id = some g →
    (∀ pos va bs bad, s.frameAt src dst isRdRsp = some (n, f) → f.body = .rdRsp pos va bs bad false → (g.asks.filter fun a => decide (a.1 ≠ pos)) = [] →
      ∃ t, exec (.rdRsp src dst) s = .next t ∧ t.fabric = s.fabric.eraseIdx n ∧ t.core dst f.core = k.deliver { g.lay pos va bs bad with asks := [] }) ∧
    (s.frameAt src dst isWrAck = some (n, f) → f.body = .wrAck false → g.asks.length ≤ 1 →
      ∃ t, exec (.wrAck src dst) s = .next t ∧ t.fabric = s.fabric.eraseIdx n ∧ t.core dst f.core = k.deliver { g with asks := [] }) ∧
    (∀ old va bad, s.frameAt src dst isAmoRsp = some (n, f) → f.body = .amoRsp old va bad false →
      ∃ t, exec (.amoRsp src dst) s = .next t ∧ t.fabric = s.fabric.eraseIdx n ∧ t.core dst f.core = k.deliver { g.lay 0 va (toBytes old g.size) [bad] with asks := [] }) ∧
    (g.asks ≠ [] → ∃ t g', exec (.remoteAccessTimeout dst f.core f.id) s = .next t ∧ t.now = max s.now (g.issued + 100000) ∧ g'.asks = [] ∧ g'.bad.isSome = true ∧
      t.core dst f.core = k.deliver g' ∧ ∀ h ∈ t.fabric, h ∈ s.fabric)

/-- Requests between sleds are served, fail out of service, and their answers complete the operation that asked. That a failed request is answered when it is served (log 44), and how failures are counted (log 67), are DEDUCED; the posts of units are the model's (log 132). -/
def Obligations.RequestsBetweenSleds : Prop := Sys2Proof.Machine.RequestsAreServedAndAnswered ∧ Sys2Proof.Machine.RequestsOutOfServiceFail ∧ Sys2Proof.Machine.AnswersCompleteTheirOperation

/-! ### Config space -/

/-- Every 32-bit access of config space by its command, with a value for those that write. -/
def Sys2Proof.Machine.cfgRows (who : Requester) (n : Node) (off : CfgOff) (v : Word32) : List Instr :=
  [.cfgLowWordRead who n off, .cfgHighWordRead who n off, .cfgLowWordWrite who n off v, .cfgHighWordWrite who n off v, .w1cWrite who n off v,
   .unassignedOffsetAccess who n off none, .unassignedOffsetAccess who n off (some v)]

/-- A config access that is not 4 bytes wide on a multiple of 4 or 8 on a multiple of 8 is answered ALIGN and does nothing (R5); an offset with no register reads 0 and
ignores writes (R6); a write of a 32-bit register takes its RW bits, and of an event register clears exactly the bits written as 1 that hardware does not set in the same cycle (R3, R14). -/
def Sys2Proof.Machine.ConfigAccessesFollowTheirTables : Prop :=
  ∀ (who : Requester) (n : Node) (off : CfgOff) (v : Word32) (v8 : Word64) (width : Nat) (s : State),
    (off.toNat % 4 ≠ 0 → ∀ c ∈ cfgRows who n off v, exec c s = .next { s with reply := .align }) ∧
    (off.toNat % 8 ≠ 0 → ∀ w ∈ [none, some v8], exec (.cfgPairAccess64 who n off w) s = .next { s with reply := .align }) ∧
    ((width ≠ 4 ∧ width ≠ 8) ∨ off.toNat % width ≠ 0 → exec (.registerWrite who n off width v8) s = .next { s with reply := .align }) ∧
    (cfgAt n off.toNat = none → off.toNat % 4 = 0 → exec (.unassignedOffsetAccess who n off none) s = .next { s with reply := .val 0 } ∧
      exec (.unassignedOffsetAccess who n off (some v)) s = .next { s with reply := .none }) ∧
    (∀ r ∈ [Reg.gteBudget, .ledToll, .ledTollCtl, .schQnotify, .belEventEn, .twnEventEn, .pwrEventEn, .cslEventEn, .curEventEn, .curHealth, .teHqThresh, .teHqHandle], ∀ i j : Nat,
      cfgAt n off.toNat = some ⟨r, i, j, false⟩ → off.toNat % 4 = 0 → let rw := BitVec.ofNat 32 (regInfo r).rw
      ∃ t, exec (.registerWrite who n off 4 v8) s = .next t ∧ t.reply = .none ∧
        (t.space n).r32 r i j = ((s.space n).r32 r i j &&& ~~~rw) ||| (v8.truncate 32 &&& rw)) ∧
    (∀ r ∈ [Reg.belEvent, .twnEvent, .pwrEvent, .cslEvent, .curEvent], cfgAt n off.toNat = some ⟨r, 0, 0, false⟩ → off.toNat % 4 = 0 →
      let c := (s.preRead n r).space n
      let now : Word32 := (c.raisedAt (s.preRead n r).now (regOff r 0 0)).truncate 32
      ∃ t, exec (.w1cWrite who n off v) s = .next t ∧ t.reply = .none ∧ (t.space n).r32 r = c.r32 r &&& ~~~(v &&& BitVec.ofNat 32 (regInfo r).w1c &&& ~~~now))

/-- A 32-bit read of a pair's low word returns it and keeps the high word for this requester; the high word is then read from there, once, and else from the register (R8). A
32-bit write of a low word is held, and the write of the high word commits both, with the low word as it stands where this requester holds none (R9). A 64-bit access reads or writes
the pair at once, and drops a held low word (R7, R16). -/
def Sys2Proof.Machine.PairsAreReadAndWrittenWhole : Prop :=
  ∀ (who : Requester) (n : Node) (off : CfgOff) (v : Word32) (v8 : Word64) (s : State) (h : RegHit), cfgAt n off.toNat = some h → (regInfo h.reg).wide = true →
    let x := s.live n h.reg h.i h.j
    let low := off.toNat - 4
    (off.toNat % 4 = 0 → h.high = false → ∃ t, exec (.cfgLowWordRead who n off) s = .next t ∧ t.reply = .val ((x.truncate 32 : Word32).zeroExtend 64) ∧
      (t.space n).words = (s.space n).words ∧ (t.space n).shadow who off.toNat = some ((x >>> 32).truncate 32) ∧
      ∀ w p, w ≠ who ∨ p ≠ off.toNat → (t.space n).shadow w p = (s.space n).shadow w p) ∧
    (off.toNat % 4 = 0 → h.high = true →
      (∀ k, (s.space n).shadow who low = some k → ∃ t, exec (.cfgHighWordRead who n off) s = .next t ∧ t.reply = .val (k.zeroExtend 64) ∧
        (t.space n).words = (s.space n).words ∧ (t.space n).shadow who low = none) ∧
      ((s.space n).shadow who low = none → exec (.cfgHighWordRead who n off) s = .next { s with reply := .val (((x >>> 32).truncate 32 : Word32).zeroExtend 64) })) ∧
    (off.toNat % 4 = 0 → h.high = false → writeTaken who h.reg = true → ∃ t, exec (.cfgLowWordWrite who n off v) s = .next t ∧ t.reply = .none ∧
      (t.space n).words = (s.space n).words ∧ (t.space n).heldAt off.toNat = some (who, v)) ∧
    (off.toNat % 4 = 0 → h.high = true → writeTaken who h.reg = true → let drop := s.onSpace n fun c => c.dropHeld low
      (∀ k, (s.space n).heldAt low = some (who, k) → exec (.cfgHighWordWrite who n off v) s = .next { drop.regWrite who n h.reg h.i h.j (v ++ k) with reply := .none }) ∧
      ((∀ k, (s.space n).heldAt low ≠ some (who, k)) → exec (.cfgHighWordWrite who n off v) s = .next { drop.regWrite who n h.reg h.i h.j (v ++ (x.truncate 32 : Word32)) with reply := .none })) ∧
    (off.toNat % 8 = 0 → exec (.cfgPairAccess64 who n off none) s = .next { s with reply := .val x } ∧
      exec (.cfgPairAccess64 who n off (some v8)) s = .next { s.pairStore who n h.reg h.i h.j v8 with reply := .none }) ∧
    (off.toNat % 8 = 0 → h.reg ∈ [Reg.tntPtroot, .mmuTlbiVa, .teHqBase, .prbRqBase, .prtScratchBase] → let rw := BitVec.ofNat 64 (regInfo h.reg).rw
      ∃ t, exec (.cfgPairAccess64 who n off (some v8)) s = .next t ∧ (t.space n).heldAt (regOff h.reg h.i h.j) = none ∧
        (t.space n).r64 h.reg h.i h.j = ((s.space n).r64 h.reg h.i h.j &&& ~~~rw) ||| (v8 &&& rw))

/-- Config accesses: registers, and pairs of registers. The field that holds what a read returns is the model's (log 2). -/
def Obligations.ConfigRegistersFollowTheirTables : Prop := Sys2Proof.Machine.ConfigAccessesFollowTheirTables ∧ Sys2Proof.Machine.PairsAreReadAndWrittenWhole

/-- A block's reset gives its registers their reset values, but for those whose table gives none of their own, drops every held low word and every shadow of it, and leaves the
other blocks; FUS_DEBUG.CLOSED stands (R4, R16, R480). What the block held is gone: an engine's pool, a Depot's kernels, the Bell of a node. -/
def Sys2Proof.Machine.BlockResetRestoresItsBlock : Prop :=
  ∀ (n : Node) (b : Block) (s : State), ∃ t, exec (.blockReset n b) s = .next t ∧
    (∀ (r : Reg) (i j : Nat) (hi : Bool), let off := regOff r i j + if hi then 4 else 0
      off ≠ regOff .fusDebug 0 0 →
      (t.space n).half r i j hi = if blockHolds b off && !keepsWord n off then resetHalf r i j hi else (s.space n).half r i j hi) ∧
    (∀ (w : Requester) (off : Nat), (t.space n).shadow w off = (if blockHolds b off then none else (s.space n).shadow w off) ∧
      (t.space n).heldAt off = if blockHolds b off then none else (s.space n).heldAt off) ∧
    (∀ sl, n = .sled sl → (b = .fuses → (t.sled sl).r32 .fusDebug = if (s.sled sl).debugClosed then 2 else 0) ∧ (b ≠ .fuses → (t.sled sl).r32 .fusDebug = (s.sled sl).r32 .fusDebug) ∧
      (b = .te → ∀ e : EngineId, (t.sled sl).teStatus e = 0) ∧ (b = .depots → ∀ m : DepotId, (t.sled sl).depStatusWord m = 0) ∧ (b = .bell → (t.sled sl).bell.running = false))

/-- Registers with a rule of their own: SCH_CH_CFG keeps MODE, RANK and GFX of a channel in use, and a second GFX stays clear (R247); TNT_FLOG_BASE must be aligned to
4 KiB (R92); an entry of the region table that may not stand is refused (R200), and a range that may not stand is ignored until the next join check (R407); TWN_RANGE is the Sled
Factor's (Table 12.8). A pair is written whole, and its held low word dropped (R16). -/
def Sys2Proof.Machine.CheckedRegistersRefuseWhatMayNotStand : Prop :=
  ∀ (who : Requester) (sl : SledId) (s : State), let d := s.sled sl
    (∀ (die : DieId) (ch : Fin 8) (v : Word32), let old := d.r32 .schChCfg die ch
      let used := d.usedBy die (fun e => decide (e.channel = ch)) ≠ 0
      ∃ t, exec (.schChCfgWrite who sl die ch v) s = .next t ∧ let new := (t.sled sl).r32 .schChCfg die ch
        fld new 20 8 = min 4096 (fld v 20 8) ∧ fld new 1 1 = fld v 1 1 ∧
        (used → fld new 0 0 = fld old 0 0 ∧ fld new 6 4 = fld old 6 4 ∧ fld new 2 2 = fld old 2 2) ∧
        (¬used → fld new 0 0 = fld v 0 0 ∧ fld new 6 4 = fld v 6 4 ∧ (bit new 2 = (bit v 2 && !((List.range 8).any fun k => decide (k ≠ ch) && bit (d.r32 .schChCfg die k) 2))))) ∧
    (∀ (u : TenantId) (v : Word64), ∃ t, exec (.tntFlogBaseWrite who sl u v) s = .next t ∧ (t.sled sl).cfg.heldAt (regOff .tntFlogBase u 0) = none ∧
      (fld v 11 0 = 0 → (t.sled sl).r64 .tntFlogBase u = v ∧ bit ((t.sled sl).r32 .tntStatus u) 5 = false) ∧
      (fld v 11 0 ≠ 0 → (t.sled sl).r64 .tntFlogBase u = d.r64 .tntFlogBase u ∧ bit ((t.sled sl).r32 .tntStatus u) 5 = true)) ∧
    (∀ (i : Fin 1024) (v : Word64), let w := v &&& BitVec.ofNat 64 (regInfo .regEntry).rw; let old := d.r64 .regEntry i
      ∃ t, exec (.regEntryWrite who sl i v) s = .next t ∧
        (bit w 0 = true → d.entryOk i w = false → (t.sled sl).r64 .regEntry i = old ∧ bit ((t.sled sl).r32 .regStatus) 1 = true ∧ (t.sled sl).convs = d.convs) ∧
        ((bit w 0 = true → d.entryOk i w = true) → (t.sled sl).r64 .regEntry i = w ∧ bit ((t.sled sl).r32 .regStatus) 1 = false ∧
          (t.sled sl).convs = d.convs ++ (if bit old 0 = true ∧ old ≠ w then [⟨i, old, false⟩] else []) ++ (if bit w 0 = true ∧ old ≠ w then [⟨i, w, true⟩] else []) ∧
          (bit ((t.sled sl).r32 .regStatus) 0 = true ↔ (t.sled sl).convs ≠ []))) ∧
    (∀ (i : Fin 256) (v : Word64), let w := v &&& BitVec.ofNat 64 (regInfo .twnRange).rw
      (who ≠ .factor → exec (.twnRangeWrite who sl i v) s = .next s) ∧
      (who = .factor → ∃ t, exec (.twnRangeWrite who sl i v) s = .next t ∧ (d.rangeOk i w = true → (t.sled sl).r64 .twnRange i = w ∧ (t.sled sl).cfgMismatch = d.cfgMismatch) ∧
        (d.rangeOk i w = false → (t.sled sl).r64 .twnRange i = d.r64 .twnRange i ∧ (t.sled sl).cfgMismatch = true)))

/-- Block resets, and the registers that refuse what may not stand in them. Which registers keep their value at a block's reset, and what becomes of the work a block holds, are the model's (log 66), and so are the clamp of QUOTA (log 15) and a region entry of size 0 (log 86). -/
def Obligations.ResetsAndCheckedRegisters : Prop := Sys2Proof.Machine.BlockResetRestoresItsBlock ∧ Sys2Proof.Machine.CheckedRegistersRefuseWhatMayNotStand

/-! ### The Bell -/

/-- A boundary advances the Bell count by one and BEL_TICK_START by the length of the tick that ended (R36), samples a written period pair at an epoch only, and only when it is
valid (R49), takes a settle length of a fiftieth of the period but at least 20 µs (R37), and makes the tick no more than 1 % and one fractional ns longer or shorter than the
period (R43); the standby Rack Factor's generator follows the active one's at the same count (R46); a node whose Bell does not run does nothing. -/
def Obligations.BoundariesAdvanceTheBell : Prop :=
  ∀ (s : State) (sl : SledId) (b : RfId),
    (∀ (x : Ctx) (d : Sled), let q := d.tickStart x none; let pend := isEpoch (d.count + 1) && bit (d.r32 .belStatus) 9; let ok := pairValid (d.r32 .belPeriodNext) (d.r32 .belFracNext)
      let p := (q.1.r32 .belPeriod).toNat
      q.1.r32 .belPeriod = (if pend && ok then d.r32 .belPeriodNext else d.r32 .belPeriod) ∧ q.2 = (if pend then some ok else none) ∧
      q.1.r32 .belSettle = BitVec.ofNat 32 (max 20000 (p / 50)) ∧
      (p ≤ 200000000 → p - p / 100 ≤ (q.1.r32 .belTickLen).toNat ∧ (q.1.r32 .belTickLen).toNat ≤ p + p / 100 + 1)) ∧
    ((s.sled sl).bell.running = false → exec (.bellBoundary (.sled sl)) s = .next s) ∧
    ((s.sled sl).bell.running = true → let d := s.sled sl
      ∃ t t1 : State, exec (.bellBoundary (.sled sl)) s = .next t ∧ t = ((t1.boundaryWork sl).sledEpoch sl).sendAck sl ∧ t1.now = max s.now (d.bell.startedAt + (d.r32 .belTickLen).toNat) ∧
        let e := t1.sled sl
        e.count = d.count + 1 ∧ e.r64 .belTickStart = d.r64 .belTickStart + BitVec.ofNat 64 (d.r32 .belTickLen).toNat ∧
        e.bell.startedAt = t1.now ∧ e.bell.settle = 1 ∧ e.bell.work = false ∧ e.bell.admitted = false) ∧
    ((s.rf b).up = false ∨ (s.rf b).bell.running = false → exec (.bellBoundary (.rf b)) s = .next s) ∧
    ((s.rf b).up = true → (s.rf b).bell.running = true → let r := s.rf b; let at' := max s.now (r.bell.startedAt + (r.r32 .belTickLen).toNat)
      (b = s.activeRf → ∃ t t1 : State, exec (.bellBoundary (.rf b)) s = .next t ∧ t = (t1.boundaryOf b).rackBoundary b ∧ t1.now = at' ∧ (t1.rf b).count = r.count + 1 ∧
        (t1.rf b).r64 .belTickStart = r.r64 .belTickStart + BitVec.ofNat 64 (r.r32 .belTickLen).toNat) ∧
      (b ≠ s.activeRf → let a := s.rf s.activeRf
        ∃ t, exec (.bellBoundary (.rf b)) s = .next t ∧ t.now = at' ∧ (t.rf b).count = r.count + 1 ∧ (t.rf b).copyGot = false ∧
          (t.rf b).missed = (if r.copyGot then 0 else r.missed + 1) ∧
          (a.up = true → a.bell.running = true → a.count = r.count + 1 → (t.rf b).bell.acc = a.bell.acc ∧ bit ((t.rf b).r32 .belStatus) 9 = bit (a.r32 .belStatus) 9 ∧
            ∀ g ∈ [Reg.belPeriod, .belFrac, .belTickLen, .belSettle, .belPeriodNext, .belFracNext], (t.rf b).r32 g = a.r32 g))) ∧
    (let r := s.rf b; let e := (s.measure b).rf b
      e.r32 .belSettle = BitVec.ofNat 32 (max 20000 (r.period / 50)) ∧ e.r32 .belPhaseErr = phaseWord (r.phaseErr s.now) ∧
      (r.period ≤ 200000000 → r.period - r.period / 100 ≤ (e.r32 .belTickLen).toNat ∧ (e.r32 .belTickLen).toNat ≤ r.period + r.period / 100 + 1))

/-- BELL_IN: an edge less than half a period after the last accepted one is rejected, which ends the run, and the eighth of a tick disarms the source (R55); an accepted one lengthens the
run when it comes within 1 % of a period, and 16 qualify an armed source (R45); a source whose last intervals all differ from the mean period by more than 1 % is not qualified (R64). The loss of
either source ends its qualification without disarming it, and is an event when it was active (R54, R57). Slewing that has not ended 100 ticks after a handover disarms the source (R56). -/
def Sys2Proof.Machine.SourcesQualifyAndAreLost : Prop :=
  ∀ (s : State) (b : RfId), let r := s.rf b; let k := r.bell; let armed := bit (r.r32 .belStatus) 7
    let early := ∃ e, k.lastEdge = some e ∧ 2 * (s.now - e) < r.period
    let near := ∃ e, k.lastEdge = some e ∧ 100 * (((s.now - e) * r.mean.2 : Nat) - (r.mean.1 : Int)).natAbs ≤ r.mean.1
    let gaps := match k.lastEdge with
      | some e => ((s.now - e) :: k.inGaps).take 16
      | none => k.inGaps
    let fits := gaps = [] ∨ ∃ g ∈ gaps, 100 * ((g * r.mean.2 : Nat) - (r.mean.1 : Int)).natAbs ≤ r.mean.1
    (r.up = false → exec (.bellInEdge b) s = .next s) ∧
    (r.up = true → early → ∃ t, exec (.bellInEdge b) s = .next t ∧ (t.rf b).bell.lastEdge = k.lastEdge ∧ (t.rf b).bell.rejTick = k.rejTick + 1 ∧ (t.rf b).bell.inRun = 0 ∧
      (7 ≤ k.rejTick → armed = true → bit ((t.rf b).r32 .belStatus) 7 = false ∧ bit ((t.rf b).r32 .belStatus) 5 = false ∧ bit ((t.rf b).r32 .belEvent) 1 = true)) ∧
    (r.up = true → ¬early → ∃ t, exec (.bellInEdge b) s = .next t ∧ (t.rf b).bell.lastEdge = some s.now ∧ (t.rf b).bell.inGaps = gaps ∧ (near → (t.rf b).bell.inRun = k.inRun + 1) ∧
      (¬near → fits → (t.rf b).bell.inRun = 1) ∧ (¬fits → (t.rf b).bell.inRun = 0 ∧ bit ((t.rf b).r32 .belStatus) 5 = false) ∧
      (near → armed = true → 15 ≤ k.inRun → bit ((t.rf b).r32 .belStatus) 5 = true) ∧
      (fits → ¬(near ∧ armed = true ∧ 15 ≤ k.inRun) → bit ((t.rf b).r32 .belStatus) 5 = bit (r.r32 .belStatus) 5)) ∧
    (∀ e, r.up = true → k.lastEdge = some e → bit (r.r32 .belStatus) 5 = true → ∃ t, exec (.bellLost b) s = .next t ∧ t.now = max s.now (e + 2 * r.period + 1000000) ∧
      bit ((t.rf b).r32 .belStatus) 5 = false ∧ bit ((t.rf b).r32 .belStatus) 7 = armed ∧ (r.src = 1 → bit ((t.rf b).r32 .belEvent) 0 = true)) ∧
    (r.up = true → ∃ t, exec (.ptpLost b) s = .next t ∧ (t.rf b).bell.ptpSeen = false ∧ bit ((t.rf b).r32 .belStatus) 4 = false ∧ bit ((t.rf b).r32 .belStatus) 6 = bit (r.r32 .belStatus) 6 ∧
      (r.src = 2 → bit (r.r32 .belStatus) 4 = true → bit ((t.rf b).r32 .belEvent) 5 = true)) ∧
    (∀ n, r.up = true → k.slewFrom = some n → bit (r.r32 .belStatus) 8 = true → 100 ≤ (r.count - n).toNat → r.src ≠ 0 → let p := decide (r.src = 2)
      ∃ t, exec (.bellUnlock b) s = .next t ∧ bit ((t.rf b).r32 .belStatus) (if p then 6 else 7) = false ∧ bit ((t.rf b).r32 .belStatus) (if p then 4 else 5) = false ∧
        bit ((t.rf b).r32 .belEvent) 2 = true ∧ (t.rf b).bell.slewFrom = none)

/-- PTP messages of the clock's domain show a master or move the servo; others do nothing (R508 to R510). Re-arming a source clears its history (R50), the writable registers are the
active Rack Factor's and the standby holds copies (R46, R52), and a change of BEL_PTP makes PTP qualify afresh. A sled ignores all these writes (R52). -/
def Sys2Proof.Machine.BellRegistersAndPtp : Prop :=
  ∀ (s : State) (who : Requester) (b : RfId) (sl : SledId) (m : PtpMsg) (v : Word32) (v8 : Word64), let r := s.rf b
    let mine := r.up = true ∧ m.domain.toNat = fld (r.r32 .belPtp) 6 0
    (¬mine → exec (.ptpMessageRx b m) s = .next s) ∧
    (mine → m.kind = .announce → ∃ t, exec (.ptpMessageRx b m) s = .next t ∧ (t.rf b).bell = { r.bell with ptpSeen := true }) ∧
    (mine → m.kind ∈ [PtpKind.sync, .followUp, .delayResp] → ∃ t, exec (.ptpMessageRx b m) s = .next t ∧
      (t.rf b).bell = { r.bell with ptpServo := m.offset, ptpBase := some (m.ptpTime - s.now) }) ∧
    (mine → m.kind ∈ [PtpKind.peerDelay, .metadataTlv] → exec (.ptpMessageRx b m) s = .next s) ∧
    (∃ t, exec (.rearmPtp who (.rf b)) s = .next t ∧ bit ((t.rf b).r32 .belStatus) 6 = true ∧ bit ((t.rf b).r32 .belStatus) 4 = false ∧ (t.rf b).bell.ptpGood = 0) ∧
    (∃ t, exec (.rearmIn who (.rf b)) s = .next t ∧ bit ((t.rf b).r32 .belStatus) 7 = true ∧ bit ((t.rf b).r32 .belStatus) 5 = false ∧ (t.rf b).bell.lastEdge = none ∧
      (t.rf b).r32 .belRejects = 0) ∧
    (b = s.activeRf →
      (∃ t, exec (.belPeriodNextWrite who (.rf b) v) s = .next t ∧ (∀ o : RfId, (t.rf o).r32 .belPeriodNext = v &&& 0x0FFFFFFF) ∧ bit ((t.rf b).r32 .belStatus) 9 = true) ∧
      (∃ t, exec (.belFracNextWrite who (.rf b) v) s = .next t ∧ (∀ o : RfId, (t.rf o).r32 .belFracNext = v) ∧ bit ((t.rf b).r32 .belStatus) 9 = true) ∧
      (∃ t, exec (.belAlignWrite who (.rf b) v8) s = .next t ∧ ∀ o : RfId, (t.rf o).r64 .belAlign = v8) ∧
      (∃ t, exec (.belSrcEnWrite who (.rf b) v) s = .next t ∧ (∀ o : RfId, (t.rf o).r32 .belSrcCtl = v &&& 3) ∧ (bit v 3 = true → bit ((t.rf b).r32 .belStatus) 6 = true) ∧
        (bit v 2 = true → bit ((t.rf b).r32 .belStatus) 7 = true))) ∧
    (b ≠ s.activeRf → exec (.belPeriodNextWrite who (.rf b) v) s = .next s ∧ exec (.belFracNextWrite who (.rf b) v) s = .next s) ∧
    (r.r32 .belPtp ≠ v &&& 0x17F → ∃ t, exec (.belPtpWrite who (.rf b) v) s = .next t ∧ (t.rf b).r32 .belPtp = v &&& 0x17F ∧ bit ((t.rf b).r32 .belStatus) 4 = false ∧
      (t.rf b).bell.ptpSeen = false) ∧
    (∀ c ∈ [(.belPeriodNextWrite who (.sled sl) v : Instr), .belFracNextWrite who (.sled sl) v, .belSrcEnWrite who (.sled sl) v, .belPtpWrite who (.sled sl) v, .rearmPtp who (.sled sl),
      .rearmIn who (.sled sl)], exec c s = .next s)

/-- The sources of the Bell, and its registers. That REARM acts on any source (log 80), how PTP messages carry the servo's offset (log 81), and which run and which intervals of BELL_IN count (log 118), are DEDUCED. -/
def Obligations.BellSourcesAndRegisters : Prop := Sys2Proof.Machine.SourcesQualifyAndAreLost ∧ Sys2Proof.Machine.BellRegistersAndPtp

/-- A Bell message to a sled in service at the same count shows its path delay and its difference, slews a sled more than 40 ns away (R47), renews the pair's lease for 4 ticks and tells
whether this sled holds it by TWN_RK_LEASE (R395). A sled with another count fences its tenants and is FENCED, and the message of an epoch re-admits it (R48). A SYNCING sled enters service at the
message of an epoch (R402). Without a Bell for 2 periods and 1 ms a sled is absent, and the next message makes it join again (R31). A lease not renewed ends and its sled's protected tenants are
fenced (R414). That a renewed lease re-admits what its lapse fenced is DEDUCED (log 52). -/
def Obligations.BellMessagesKeepSledsInStep : Prop :=
  ∀ (s : State) (sl : SledId) (m : BellMsg), let d := s.sled sl; let odd : BitVec 8 := ((s.rf s.activeRf).r32 .twnRkLease).truncate 8; let holds := holdsBy odd sl
    let hears := d.ended = false ∧ s.isolatedPort sl = false; let alone := ∀ u, d.active u = true → d.mirror u = false
    (d.ended = true ∨ d.rackState = 0 ∨ s.isolatedPort sl = true → exec (.bellMessage sl m) s = .next s) ∧
    (hears → d.rackState = 4 ∨ d.rackState = 7 → d.bell.absent = false → d.count = m.count →
      ∃ t, exec (.bellMessage sl m) s = .next t ∧ let e := t.sled sl
        e.r32 .belPathDelay = m.delay ∧ e.r32 .belSkew = BitVec.ofInt 32 m.offset ∧ e.bell.heard = s.now ∧ e.hasLease = holds ∧
        e.bell.leaseUntil = some (m.count + 4) ∧ e.bell.slew = (if 40 < m.offset.natAbs then -m.offset else d.bell.slew) ∧
        (40 < m.offset.natAbs → bit (e.r32 .belEvent) 7 = true) ∧ (holds = true → d.hasLease = false → bit (e.r32 .twnEvent) 6 = true) ∧
        (d.bell.leaseUntil = none → ∀ u, d.protectedT u = true → e.fenced u = false) ∧ (∀ u, d.protectedT u = false → e.fenced u = d.fenced u) ∧
        (d.bell.leaseUntil ≠ none → ∀ u, e.fenced u = d.fenced u)) ∧
    (hears → d.rackState = 4 ∨ d.rackState = 7 → d.bell.absent = false → d.count ≠ m.count → alone →
      ∃ t, exec (.bellMessage sl m) s = .next t ∧ let e := t.sled sl
        e.rackState = 5 ∧ e.count = m.count ∧ bit (e.r32 .belEvent) 8 = true ∧ ∀ u, d.active u = true → e.fenced u = true) ∧
    (hears → d.rackState = 5 → d.bell.absent = false → isEpoch m.count = true → alone →
      ∃ t, exec (.bellMessage sl m) s = .next t ∧ let e := t.sled sl
        e.rackState = 4 ∧ e.count = m.count ∧ e.bell.running = true ∧ ∀ u, d.active u = true → e.fenced u = false) ∧
    (hears → d.rackState = 4 ∨ d.rackState = 5 ∨ d.rackState = 7 → d.bell.absent = true →
      ∃ t, exec (.bellMessage sl m) s = .next t ∧ (t.sled sl).rackState = 1 ∧ t.mail = s.mail ++ [⟨.sled sl, .rf s.activeRf, .join ⟨d.boot.fwMajor, d.boot.fwMinor, d.boot.digest, d.manifest⟩⟩]) ∧
    (hears → d.rackState = 3 → isEpoch m.count = true →
      let s1 := s.onSled sl fun x d => { d.w32 .belPathDelay m.delay with bell := { d.bell with heard := x.now } }
      exec (.bellMessage sl m) s = .next ((s1.enterService sl m).onSled sl (fun x d => d.takeLease x odd m.count true)) ∧
        let e := (s1.adoptBell sl m).sled sl
        e.count = m.count ∧ e.r64 .belTickStart = m.time ∧ e.r32 .belPeriod = m.period ∧ e.r32 .belFrac = m.den ++ m.num ∧ e.bell.running = true ∧ e.bell.absent = false) ∧
    (d.bell.running = true → d.bell.absent = false → ∃ t, exec (.bellAbsentTimeout sl) s = .next t ∧ t.now = max s.now (d.bell.heard + 2 * (d.r32 .belPeriod).toNat + 1000000) ∧
      (t.sled sl).bell = { d.bell with absent := true } ∧
      (d.bell.work = false → s.isolatedPort sl = false → (⟨.sled sl, .rf s.activeRf, .event .noService⟩ : Mail) ∈ t.mail) ∧ (d.bell.work = true → t.mail = s.mail ∧ t.reports = s.reports)) ∧
    (∀ n, d.bell.leaseUntil = some n → n.toNat ≤ d.count.toNat → ∃ t, exec (.leaseExpiry sl) s = .next t ∧ (t.sled sl).hasLease = false ∧ (t.sled sl).bell.leaseUntil = none ∧
      ∀ u, (t.sled sl).fenced u = (d.fenced u || d.protectedT u)) ∧
    (∀ n, d.bell.leaseUntil = some n → d.count.toNat < n.toNat → ∃ t, exec (.leaseExpiry sl) s = .next t ∧ t.sled sl = d)

/-! ### Settle -/

/-- The settle steps run in the order of Table 2.1, each only when the one before has ended: an item stopped at step 1 is carried, one of a Mirror tenant joins the overrun set, one of a fenced
tenant does not (R79, R96); step 2 ends once the stopped threads are off their cores; step 3 commits the ledger (R86); step 4 ends at once where no tenant has twin work and else when that is done;
step 5 admits, unless a Stop at this settle ends the sled (R422), and is forced 2 µs before the end of settle (R39); the work window opens at the end of settle when step 5 is complete (R37), and
wakes the threads whose BELLWAIT it satisfies. The steps are commands of their own, each moving time as log 1 says. -/
def Obligations.SettleStepsRunInOrder : Prop :=
  ∀ (s : State) (sl : SledId), let d := s.sled sl; let b := d.bell
    (b.running = true → b.settle = 1 → ∃ t, exec (.settleStop sl) s = .next t ∧ (t.sled sl).bell.settle = 2) ∧
    (b.settle ≠ 1 → exec (.settleStop sl) s = .next s) ∧
    (∀ x i, let e := d.stopItem x i; e.carried = d.carried ++ [i.id] ∧
      (d.fenced i.tenant = false → d.mirror i.tenant = true → (e.twin i.tenant).overran = (d.twin i.tenant).overran ++ [(i.queue, i.entry)]) ∧
      (d.fenced i.tenant = true → e.twins = d.twins ∧ e.tenants = d.tenants)) ∧
    (b.running = true → b.settle = 2 → d.stopped = true → ∃ t, exec (.flogFlush sl) s = .next t ∧ (t.sled sl).bell.settle = 3) ∧
    (b.settle ≠ 2 ∨ d.stopped = false → ∃ t, exec (.flogFlush sl) s = .next t ∧ t.sled sl = d) ∧
    (b.running = true → b.settle = 3 → ∃ t, exec (.ledgerCommit sl) s = .next t ∧ (t.sled sl).bell.settle = 4 ∧ ∀ u : TenantId, let e := t.sled sl
      (d.active u = true → e.r64 .ledLast u = d.r64 .ledCur u ∧ e.r64 .ledTotal u = d.r64 .ledTotal u + d.r64 .ledCur u ∧ e.r64 .ledCur u = BitVec.ofNat 64 (d.ten u).ledNext ∧
        (e.ten u).ledNext = 0) ∧
      (d.active u = false → e.r64 .ledLast u = d.r64 .ledLast u ∧ e.r64 .ledTotal u = d.r64 .ledTotal u ∧ e.r64 .ledCur u = d.r64 .ledCur u)) ∧
    (b.settle ≠ 4 → exec (.twinSettle sl) s = .next s) ∧
    (b.settle = 4 → d.step4Tenants = [] → ∃ t, exec (.twinSettle sl) s = .next t ∧
      (t.sled sl).bell.settle = if allTenants.any (fun u => (d.twin u).waiting || (d.twin u).sending.isSome) then 7 else if b.admitted && !d.stopsHere then 6 else 5) ∧
    (b.running = true → b.settle = 5 → d.stopsHere = false → ∃ t, exec (.gateSettleAdmit sl) s = .next t ∧ (t.sled sl).bell.settle = 6 ∧ (t.sled sl).bell.admitted = true) ∧
    (b.running = true → b.settle = 5 → d.stopsHere = true → ∃ t, exec (.gateSettleAdmit sl) s = .next t ∧
      t.sled sl = { (default : Sled) with ended := true, freeCtr := (d.nvEnd sl).freeCtr, nv := (d.nvEnd sl).nv } ∧
      (s.isolatedPort sl = false → (⟨.sled sl, .rf s.activeRf, .dying⟩ : Mail) ∈ t.mail)) ∧
    (b.running = true → b.admitted = false → b.work = false → b.settle ∈ [1, 2, 3, 4, 7] → d.stopsHere = false → ∃ t, exec (.settleStep5Force sl) s = .next t ∧
      (t.sled sl).bell.admitted = true ∧ t = (((s.upTo (b.startedAt + (d.r32 .belSettle).toNat - 2000)).step5 sl).onSled sl fun _ d => { d with bell := { d.bell with admitted := true } })) ∧
    (b.running = true → b.work = false → b.absent = false → b.admitted = true → ∃ t, exec (.workWindowOpen sl) s = .next t ∧ t.now = max s.now (b.startedAt + (d.r32 .belSettle).toNat) ∧
      (t.sled sl).bell = { b with work := true, openedAt := t.now } ∧
      ∀ die e, die < 2 → (d.ent die e).st = .blocked → (d.ent die e).awaits.toNat ≤ d.count.toNat → ((t.sled sl).ent die e).st = .ready)

/-! ### Tenants, queues and the Gate -/

/-- TNT_CTL keeps TWIN when 3 is written, and refuses to enable a seventeenth tenant (R67); TNT_ALLOT refuses what the enabled tenants together cannot have (R68, R90), and a Rack Factor's write of either
for a running Mirror tenant is made on both twins (R391); TNT_RESET.GO starts a reset at once but for a Mirror tenant, whose reset waits for the boundary on both twins of a pair, and is ignored while one runs
(R88, R97), and RESET_BUSY clears when it is done; the toll, reached once a tick, stages its warning and sets THROTTLED (R87). Which allotments the sums count is DEDUCED (log 91). -/
def Obligations.TenantRegistersAndResets : Prop :=
  ∀ (who : Requester) (sl : SledId) (u : TenantId) (v : Word32) (s : State), let d := s.sled sl
    let old := d.r32 .tntCtl u
    let w := v &&& 0x33
    let full := bit v 0 = true ∧ bit old 0 = false ∧ 16 ≤ allTenants.countP fun o => decide (o ≠ u) && bit (d.r32 .tntCtl o) 0
    let a := v &&& 0x3FF1F7F
    let others := allTenants.filter fun o => decide (o ≠ u) && bit (d.r32 .tntCtl o) 0
    let sum := fun (hi lo : Nat) => fld a hi lo + (others.map fun o => fld (d.r32 .tntAllot o) hi lo).sum
    let fits := sum 6 0 ≤ d.healthyCores ∧ fld a 6 0 ≤ 96 ∧ sum 12 8 ≤ 16 ∧ sum 25 16 ≤ 1000
    let nj := if d.bell.settle ∈ [1, 2, 3] then (d.ten u).ledNext else (d.r64 .ledCur u).toNat
    let reached := (d.ten u).toll ≠ 0 ∧ (d.ten u).tolled = false ∧ 1000 * (d.ten u).toll.toNat ≤ nj ∧ d.active u = true
    (s.bothTwins who sl u = true → let o := s.sled (twinOf sl)
      (∃ t, exec (.tntCtlWrite who sl u v) s = .next t ∧ t.sled (twinOf sl) = o.tntCtlWrite u v) ∧ (∃ t, exec (.tntAllotWrite who sl u v) s = .next t ∧ t.sled (twinOf sl) = o.tntAllotWrite u v)) ∧
    (∃ t, exec (.tntCtlWrite who sl u v) s = .next t ∧
      (full → (t.sled sl).r32 .tntCtl u = old ∧ bit ((t.sled sl).r32 .tntStatus u) 2 = true) ∧
      (¬full → (t.sled sl).r32 .tntCtl u = (if fld v 5 4 = 3 then setFld w 5 4 (fld old 5 4) else w) ∧ bit ((t.sled sl).r32 .tntStatus u) 2 = false)) ∧
    (∃ t, exec (.tntAllotWrite who sl u v) s = .next t ∧
      (fits → (t.sled sl).r32 .tntAllot u = a ∧ bit ((t.sled sl).r32 .tntStatus u) 3 = false) ∧
      (¬fits → (t.sled sl).r32 .tntAllot u = d.r32 .tntAllot u ∧ bit ((t.sled sl).r32 .tntStatus u) 3 = true)) ∧
    (d.resetBusy u = true → exec (.tntResetGo who sl u) s = .next s) ∧
    (d.resetBusy u = false → d.mirror u = true → ∃ t, exec (.tntResetGo who sl u) s = .next t ∧ (t.sled sl).ten u = { d.ten u with resetPend := true } ∧
      (bit (d.r32 .twnT u 0) 4 = true → bit ((s.sled (twinOf sl)).r32 .twnT u 0) 4 = true → ((t.sled (twinOf sl)).ten u).resetPend = true)) ∧
    (d.resetBusy u = false → d.mirror u = false → ∃ t, exec (.tntResetGo who sl u) s = .next t ∧ (t.sled sl).resetBusy u = true ∧ ((t.sled sl).ten u).resetAt = some t.now) ∧
    (d.resetBusy u = true → ∃ t, exec (.tenantResetDone sl u) s = .next t ∧ (t.sled sl).resetBusy u = false ∧ (t.sled sl).ten u = { d.ten u with resetAt := none }) ∧
    (reached → ∃ t, exec (.tollReached sl u) s = .next t ∧ bit ((t.sled sl).r32 .ledStatus u) 0 = true ∧
      (t.sled sl).ten u = { (d.stage (s.ctx sl) u { code := 0x0D, sev := 1, source := 9 }).ten u with tolled := true }) ∧
    (¬reached → ∃ t, exec (.tollReached sl u) s = .next t ∧ t.sled sl = d)

/-- TNT_Q_CTL: an enable with a size outside 16 to 65,536 entries, or a ring or header that is not aligned, and a size changed while enabled, are refused with CFG_BAD (R91); a good enable
takes HEAD and TAIL from the header where the tenant is enabled (R102). RESUME clears the stall (R85). A TAIL store beyond the ring is refused with TAIL_BAD, and else the Gate has the new TAIL (R71, R93). -/
def Sys2Proof.Machine.QueuesOpenAndTakeTheirTail : Prop :=
  ∀ (who : Requester) (sl : SledId) (u : TenantId) (q : QueueId) (v : Word32) (s : State), let d := s.sled sl; let x : Ctx := s.ctx sl
    let old := d.r32 .tntQCtl u q
    let lg := fld v 12 8
    let bad := lg < 4 ∨ 16 < lg ∨ (d.r64 .tntQBase u q).toNat % (2 ^ lg * 64) ≠ 0 ∨ d.qHdr u q % 64 ≠ 0
    let status := fun (t : State) => (t.sled sl).r32 .tntQStatus u q
    (∃ t, exec (.tntQCtlWrite who sl u q v) s = .next t ∧
      (bit old 0 = true → bit v 0 = true → lg ≠ fld old 12 8 → (t.sled sl).r32 .tntQCtl u q = old ∧ bit (status t) 3 = true ∧ t.sled sl = d.qBit u q 3 true) ∧
      (bit old 0 = true → bit v 0 = true → lg = fld old 12 8 → bit v 16 = false → (t.sled sl).r32 .tntQCtl u q = v &&& 0x1F0F ∧ bit (status t) 3 = false) ∧
      (bit old 0 = false → bit v 0 = true → bad → (t.sled sl).r32 .tntQCtl u q = v &&& 0x1F0E ∧ bit (status t) 3 = true) ∧
      (bit old 0 = false → bit v 0 = true → ¬bad → bit v 16 = false →
        let e := ((d.w32 .tntQCtl (v &&& 0x1F0F) u q).qBit u q 3 false).qFresh u q; t.sled sl = if d.active u then e.qOpen x u q else e) ∧
      (bit v 0 = false → (t.sled sl).r32 .tntQCtl u q = v &&& 0x1F0F ∧ bit (status t) 3 = false)) ∧
    (∀ d1 bs bad, d.uRead x u true (d.qHdr u q) 12 = (d1, .ok bs bad) → bad.any id = false → d1.qSize u q = d.qSize u q →
      let head : Word32 := ofBytes 32 (bs.take 4); let tail : Word32 := ofBytes 32 (bs.drop 8); let far := d.qSize u q < (tail - head).toNat
      (d.qOpen x u q).queue u q = { head := head, tail := if far then head else tail, opened := true }) ∧
    (d.qOn u q = false ∨ (d.queue u q).opened = true → ∃ t, exec (.qResume who sl u q) s = .next t ∧ bit (status t) 2 = false ∧ (t.sled sl).queue u q = d.queue u q) ∧
    (d.qOn u q = false ∨ (d.queue u q).opened = false → ∃ t, exec (.queueTailStore sl u q) s = .next t ∧ t.sled sl = d) ∧
    (∀ d1 bs bad, d.qOn u q = true → (d.queue u q).opened = true → d.uRead x u true (d.qHdr u q + 8) 4 = (d1, .ok bs bad) → bad.any id = false →
      let tail : Word32 := ofBytes 32 bs
      ∃ t, exec (.queueTailStore sl u q) s = .next t ∧
        (d1.qSize u q < (tail - (d.queue u q).head).toNat → t.sled sl = d1.qBit u q 1 true) ∧
        ((tail - (d.queue u q).head).toNat ≤ d1.qSize u q → d.bell.work = false → d1.bell = d.bell → t.sled sl = (d1.onQueue u q fun k => { k with tail := tail }).qBit u q 1 false))

/-- The entry kinds with their commands (Table 3.1). -/
def Sys2Proof.Machine.entryRows (sl : SledId) (u : TenantId) (q : QueueId) : List (Instr × Byte) :=
  [(.entryNop sl u q, 0), (.threadEntry sl u q, 1), (.teBatch sl u q, 2), (.probeBatch sl u q, 3), (.depotEntry sl u q, 5), (.marker sl u q, 7)]

/-- What the Gate does with the head it reads: it is admitted when its tenant's budget, and in the work window the time left, cover its charge (R74, R78) and its unit takes it (R94, R284). It then is an item,
its charge is debited, it is counted, HEAD moves on (R71), NOP and MARKER complete at once, a THREAD has been given to the scheduler (R246), and another entry is handed to its unit. It stays where
the budget does not cover it or its unit has no room, and, ORDERED or a MARKER, while older entries of the queue have not completed (R95). An entry of a reserved kind, or malformed, is consumed with
status ILLEGAL and a record, without charge, and completes at once (R103, log 114); its fault code 7 is DEDUCED (log 113). -/
def Sys2Proof.Machine.HeadsAreAdmitted : Prop :=
  ∀ (x : Ctx) (d d1 : Sled) (u : TenantId) (q : QueueId) (window : Bool) (bs : List Byte) (bad : List Bool), let k := d.queue u q; let e := parseEntry bs; let go := d.admitHead x u q window
    let i : Item := { id := d1.nextItem, tenant := u, queue := q, entry := k.head, kind := e.kind, flags := e.flags, cost := e.cost, compl := e.compl, payload := e.payload, charge := e.charge }
    let waits := (bit e.flags 0 || decide (e.kind = 7)) && d1.qBusy u q
    let short := (d1.r32 .gteRemain u).toNat < e.charge ∨ (window = true ∧ d1.windowLeft x < e.charge)
    let take := fun (d : Sled) (i : Item) => (((d.addItem i).debit u e.charge).bump32 .gteAdmitted u).qAdvance x u q
    let asked := if e.kind = 4 then d1.rasterUnit e.payload else if e.kind = 6 then d1.porterDie e.payload else 0
    let j : Item := { i with charge := 0, unit := if asked < 2 then asked else 0, st := .finished, status := 3, fault := 7 }
    d.uRead x u true (d.qSlot u q k.head) 64 = (d1, .ok bs bad) → bad.any id = false → d1.queue u q = k →
    (∀ f : Sled, ((f.qAdvance x u q).queue u q).head = (f.queue u q).head + 1) ∧
    (e.malformed = true ∨ (8 ≤ e.kind.toNat ∧ waits = false) → go = ((((d1.gateIllegal x u q k.head).addItem j).qAdvance x u q).completeItem x j, .taken)) ∧
    (e.malformed = false → waits = true ∨ (e.kind.toNat < 8 ∧ short) → go = (d1, .left true)) ∧
    (e.malformed = false → waits = false → ¬short →
      (e.kind = 0 ∨ e.kind = 7 → go = ((take d1 { i with st := .running }).finishNow x d1.nextItem, .taken)) ∧
      (e.kind = 1 → ∀ d2, d1.ready x u (e.word 0).toNat d1.nextItem true = (d2, .accepted) → go = (take d2 { i with st := .running }, .taken)) ∧
      (e.kind = 1 → ∀ d2, d1.ready x u (e.word 0).toNat d1.nextItem true = (d2, .refused) → go = (d2, .left false)) ∧
      (e.kind = 1 → ∀ d2 f, d1.ready x u (e.word 0).toNat d1.nextItem true = (d2, .fault f) → go = (d2.qFault x u q k.head f, .stalled)) ∧
      (e.kind ∈ [2, 3, 4, 5, 6] → ∀ n, d1.unitTakes u e = some (n, false) →
        go = ((take d1 { i with unit := n, st := if e.kind = 2 ∨ e.kind = 3 then .running else .queued }).handOver x u e d1.nextItem, .taken)) ∧
      (e.kind ∈ [2, 3, 4, 5, 6] → d1.unitTakes u e = none → go = (d1, .left false)))

/-- The command of an entry kind is the TAIL store that puts an entry of its kind at the head of its queue, alone there: the Gate takes TAIL, and the pass of the work window that follows admits the head
or leaves it, and then shows whether it waits for its budget or for older entries (R71, R75, R77). -/
def Sys2Proof.Machine.EntryRowsAdmitTheirHead : Prop :=
  ∀ (sl : SledId) (u : TenantId) (q : QueueId) (s : State) (d1 : Sled) (tb bs : List Byte) (tbad bad : List Bool), let d := s.sled sl; let x : Ctx := s.ctx sl; let k := d.queue u q
    let e := parseEntry bs
    let tail : Word32 := ofBytes 32 tb
    let d2 := (d1.onQueue u q fun k => { k with tail := tail }).qBit u q 1 false
    let r := d2.admitHead x u q true
    d.qOn u q = true → k.opened = true → k.skip = [] → d.uRead x u true (d.qHdr u q + 8) 4 = (d1, .ok tb tbad) → tbad.any id = false → tail = k.head + 1 → d1.queue u q = k →
    (d.uRead x u true (d.qSlot u q k.head) 64).2 = .ok bs bad →
    d2.bell.work = true → d2.mirror u = false → d2.gateOpen u = true → d2.qReady u q = true → d2.queueOrder u = [q.val] → (r.2 = .taken → r.1.queue u q = { k with head := tail, tail := tail, atHead := false }) →
    ∀ c, ((∃ kd, (c, kd) ∈ entryRows sl u q ∧ e.kind = kd ∧ e.malformed = false) ∨ (c = .reservedEntryKind sl u q ∧ (8 ≤ e.kind.toNat ∨ e.malformed = true))) →
      ∃ t, exec c s = .next t ∧ t.sled sl = r.1.qBit u q 0 (decide (r.2 = .left true)) ∧ ∀ y, y ≠ sl → t.sled y = s.sled y

/-- The Gate admits the heads of its queues. That the command of an entry kind is a TAIL store with such an entry at the head is the model's choice (log 42). -/
def Obligations.AdmissionConsumesTheHead : Prop := Sys2Proof.Machine.HeadsAreAdmitted ∧ Sys2Proof.Machine.EntryRowsAdmitTheirHead

/-- ENTRY_COMPLETION writes the status, the fault code and the Bell count to the completion word of the oldest finished item with the count of which nothing is left to write memory, where it
has a completion word, and the item is gone (R73). -/
def Sys2Proof.Machine.CompletionWritesItsWord : Prop :=
  ∀ (sl : SledId) (u : TenantId) (q : QueueId) (n : Word32) (s : State) (i : Item), let d := s.sled sl; let x : Ctx := s.ctx sl
    let word : Word64 := BitVec.ofNat 64 (i.status.toNat + 256 * i.fault.toNat + 65536 * (d.count.toNat % 2 ^ 48))
    let drop := fun (d : Sled) => { d with items := d.items.filter (fun j => decide (j.id ≠ i.id)), carried := d.carried.filter (· ≠ i.id) }
    d.items.find? (fun j => decide (j.tenant = u ∧ j.queue = q.val ∧ j.entry = n ∧ j.st = .finished) && !d.workLeft j.id) = some i → bit i.flags 1 = false →
    (i.compl = 0 → d.bell.work = false → ∃ t, exec (.entryCompletion sl u q n) s = .next t ∧ t.sled sl = drop d) ∧
    (∀ d1, i.compl ≠ 0 → d.uWrite x u true i.compl.toNat (toBytes word 8) = (d1, none) → d1.bell.work = false →
      ∃ t, exec (.entryCompletion sl u q n) s = .next t ∧ t.sled sl = drop d1)

/-- Queues open and take their TAIL, and completions write their word. An uncorrectable header is left to the model's choice of log 41. -/
def Obligations.QueuesAndCompletions : Prop := Sys2Proof.Machine.QueuesOpenAndTakeTheirTail ∧ Sys2Proof.Machine.CompletionWritesItsWord

/-! ### Translation invalidations, conversions and the scrubber -/

/-- MMU_TLBI_CMD drops exactly the entries it selects of its tenant, which is the one a core runs under and the TENANT field for a Factor (R197), MMU_TLBI_SYNC then reads 1; a conversion ends once
no kernel uses its range, and a range made Local-ECC is zero with valid check bits (R201, R378); the scrubber visits as many words as it is given, and none while it is off (R206). That an invalidation
ends when it is written is DEDUCED (log 83), the scrubber's start is the model's (log 4), and the tenant of a TAP write is free (log 124). -/
def Obligations.InvalidationsConversionsAndScrub : Prop :=
  ∀ (who : Requester) (sl : SledId) (v : Word32) (s : State) (i : Fin 1024) (n : Nat), let d := s.sled sl
    let u := match who with
      | .core c k => (s.core c k).tenant
      | _ => tenantOf (fld v 21 16)
    let hit := fun (e : TlbEntry) => decide (e.tenant = u) && (bit v 8 || tlbiHit (fld (d.r64 .mmuTlbiVa) 54 16) (fld v 5 0) e)
    let mine := d.convs.filter fun c => decide (c.index = i.val)
    let used := mine.any fun c => d.kernelIn c.entry
    (who ≠ .tap → ∃ t, exec (.tlbiCmd who sl v) s = .next t ∧ t.sled sl = { d with tlb := d.tlb.filter fun e => !hit e }) ∧
    (who = .tap → ∃ t, exec (.tlbiCmd who sl v) s = .next t ∧ (t.sled sl).mem = d.mem ∧ ∀ e ∈ (t.sled sl).tlb, e ∈ d.tlb) ∧
    exec (.tlbiSyncRead who sl) s = .next { s with reply := .val 1 } ∧
    (used = true → ∃ t, exec (.regionConversionDone sl i) s = .next t ∧ t.sled sl = d) ∧
    (used = false → ∃ t, exec (.regionConversionDone sl i) s = .next t ∧ let e := t.sled sl
      e.convs = d.convs.filter (fun c => decide (c.index ≠ i.val)) ∧ (bit (e.r32 .regStatus) 0 = true ↔ e.convs ≠ []) ∧
      ∀ off, let zero := ∃ c ∈ mine, c.toRaw = false ∧ 0x010000000000 ≤ off ∧ off < 0x018000000000 ∧ inRegion c.entry off = true
        (zero → mget e.mem off = 0 ∧ mget e.ecc (off / 8) = default) ∧ (¬zero → mget e.mem off = mget d.mem off)) ∧
    (fld (d.r32 .regScrub) 7 0 = 0 → ∃ t, exec (.patrolScrub sl n) s = .next t ∧ t.sled sl = d) ∧
    (fld (d.r32 .regScrub) 7 0 ≠ 0 → ∃ t, exec (.patrolScrub sl n) s = .next t ∧ t.sled sl = (List.range n).foldl (fun (d : Sled) _ => d.scrubWord (s.ctx sl)) d ∧
      (n = 1 → (t.sled sl).scrub = d.nextScrub d.scrub))

/-! ### Power -/

/-- The ledger's step adds the measured energy to the package's sum, each tenant's modelled energy and its share of the rest to its LED_CUR, the remainder to the system's, and starts the
counts anew; a modelled sum above the measured one is counted as excess and an event (R86, R430 to R432). -/
def Sys2Proof.Machine.LedgerStepSharesTheEnergy : Prop :=
  ∀ (sl : SledId) (core other : Nat) (s : State), let d := s.sled sl; let nj := core + other
    let on := allTenants.filter d.active
    let model := fun (n : Nat) => (mget d.fracs n + d.modelled n) / 1000000
    let rest := (List.range 65).filter fun n => !(on.map Fin.val).contains n
    let system := (rest.map model).sum
    let sum := (on.map fun u => model u.val).sum + system
    let share := fun (u : TenantId) => (nj - sum) * min (max 1 d.healthyCores) (d.allotCores u) / max 1 d.healthyCores
    let shared := (on.map share).sum
    (d.ended = true → exec (.ledgerStep sl core other) s = .next s) ∧
    (d.ended = false → ∃ t, exec (.ledgerStep sl core other) s = .next t ∧ let e := t.sled sl
      e.r64 .ledPkg = d.r64 .ledPkg + BitVec.ofNat 64 nj ∧ e.r64 .ledSys = d.r64 .ledSys + BitVec.ofNat 64 (system + (nj - sum - shared)) ∧ e.counts = [] ∧
      (∀ u, d.active u = true → d.bell.settle ∉ [1, 2, 3] → e.r64 .ledCur u = d.r64 .ledCur u + BitVec.ofNat 64 (model u.val + share u)) ∧
      (∀ u, d.active u = true → d.bell.settle ∈ [1, 2, 3] → (e.ten u).ledNext = (d.ten u).ledNext + (model u.val + share u) ∧ e.r64 .ledCur u = d.r64 .ledCur u) ∧
      (nj < sum → e.r64 .pwrLedExcess = d.r64 .pwrLedExcess + BitVec.ofNat 64 (sum - nj) ∧ bit (e.r32 .pwrEvent) 8 = true) ∧
      (sum ≤ nj → e.r64 .pwrLedExcess = d.r64 .pwrLedExcess))

/-- RAIL_SAMPLE takes its readings in steps of 10 mV; the second of two samples below 44.0 V enters Warn, and below 42.0 V, or with the 12 V rail below 11.0 V, or VPP below 1.75 V or above 1.85 V, Guard
(R418, R419); the hundredth in a row below 40.0 V ends a sled whose Bell does not run yet (R422). A trip of the comparators ends the sled at once (R423); its non-volatile state stands when it leaves reset, 100 ms after its input
is good again (R424). -/
def Sys2Proof.Machine.RailsGuardTheSled : Prop :=
  ∀ (sl : SledId) (vin v12 vpp : Nat) (s : State), let d := s.sled sl; let p := d.power; let a := vin - vin % 10; let b := v12 - v12 % 10; let c := vpp - vpp % 10
    let stop := 99 ≤ p.stopRun ∧ a < 40000 ∧ d.bell.running = false ∧ bit (d.r32 .pwrStatus) 2 = false
    (d.ended = false → stop → ∃ t, exec (.railSample sl vin v12 vpp) s = .next t ∧ (t.sled sl).ended = true) ∧
    (d.ended = false → ¬stop → ∃ t, exec (.railSample sl vin v12 vpp) s = .next t ∧ let e := t.sled sl; let on := fun k => bit (e.r32 .pwrStatus) k = true
      e.r32 .pwrVin = BitVec.ofNat 32 a ∧ e.r32 .pwrV12 = BitVec.ofNat 32 b ∧ e.r32 .pwrVpp = BitVec.ofNat 32 c ∧
      (∀ n, p.lastSample = some n → t.now = max s.now (n + 1000)) ∧ e.power.lastSample = some t.now ∧
      (p.below44 = true → a < 44000 → on 0) ∧ (p.below42 = true → a < 42000 → on 1 ∧ on 3) ∧ (p.low12 = true → b < 11000 → on 1 ∧ on 4) ∧
      ((p.lowVpp = true ∧ c < 1750) ∨ (p.highVpp = true ∧ 1850 < c) → on 1 ∧ on 5)) ∧
    (d.ended = true → ∃ t, exec (.railSample sl vin v12 vpp) s = .next t ∧ (t.sled sl).ended = true ∧ (t.sled sl).nv = d.nv ∧
      (a < 44500 → (t.sled sl).power.goodSince = none) ∧ (44500 ≤ a → p.goodSince = none → (t.sled sl).power.goodSince = some t.now)) ∧
    (d.ended = false → vin < 38000 ∨ v12 < 10200 ∨ 63000 < vin → ∃ t, exec (.immediateStop sl vin v12) s = .next t ∧ (t.sled sl).ended = true ∧
      (t.sled sl).cores = [] ∧ (t.sled sl).mem = [] ∧ (d.serial.console.dead = false → (.sled sl, .stop) ∈ t.reports)) ∧
    (38000 ≤ vin → 10200 ≤ v12 → vin ≤ 63000 → exec (.immediateStop sl vin v12) s = .next s) ∧
    (∀ n, d.ended = true → p.goodSince = some n → ∃ t, exec (.powerRestore sl) s = .next t ∧ t.now = max s.now (n + 100000000) ∧
      t.sled sl = { (default : Sled) with freeCtr := d.freeCtr, nv := d.nv })

/-- The clock moves at most 100 MHz a step toward the lowest of FTARGET and what power and heat allow, within 600 to 2,400 MHz, and the core supply takes the fused value for it (R425); between two
fused points that is the model's choice (log 121). The NV Guard lets no non-volatile write start under Guard or Stop, and counts those it refuses (R426, R428). CLRMIN starts the minimum of the input voltage anew. -/
def Sys2Proof.Machine.ClockStepsAndNvGuard : Prop :=
  ∀ (who : Requester) (sl : SledId) (pm tm : Nat) (w : NvWrite) (s : State), let d := s.sled sl; let cur := (d.r32 .pwrClk).toNat; let want := fld (d.r32 .pwrCtl) 11 0
    let top := max 600 (min 2400 (min want (min pm tm)))
    (d.ended = false → 600 ≤ cur → cur ≤ 2400 → ∃ t, exec (.clockStep sl pm tm) s = .next t ∧ let e := t.sled sl; let n := (e.r32 .pwrClk).toNat
      n ≤ cur + 100 ∧ cur ≤ n + 100 ∧ (cur ≤ top → cur ≤ n ∧ n ≤ top) ∧ (top ≤ cur → top ≤ n ∧ n ≤ cur) ∧ (cur ≤ top + 100 → top ≤ cur + 100 → n = top) ∧
      e.power.coreMv = d.fusedMv n ∧ (bit (e.r32 .pwrStatus) 7 = decide (pm < want)) ∧ (bit (e.r32 .pwrStatus) 6 = decide (tm < want)) ∧ (n < cur → pm < want ∨ tm < want → bit (e.r32 .pwrEvent) 6 = true)) ∧
    (d.ended = false → d.nvGuard = false → ∃ t, exec (.nvWriteRequest sl w) s = .next t ∧ t.sled sl = d.nvDo sl w) ∧
    (d.ended = false → d.nvGuard = true → ∃ t, exec (.nvWriteRequest sl w) s = .next t ∧ (t.sled sl).nv = d.nv ∧
      (t.sled sl).r32 .pwrNvRefused = BitVec.ofNat 32 (min ((d.r32 .pwrNvRefused).toNat + 1) (2 ^ 32 - 1)) ∧ bit ((t.sled sl).r32 .pwrEvent) 5 = true) ∧
    (∀ a bs, (d.flashProgram sl a bs).nv.blown = d.nv.blown ∧ ∀ p, d.bootSlot p = true → (d.flashProgram sl a bs).flashByte sl p = d.flashByte sl p) ∧
    (∃ t, exec (.clrmin who sl) s = .next t ∧ (t.sled sl).r32 .pwrVinMin = d.r32 .pwrVin)

/-- The ledger, the rails and the clock of a sled. The rounding of the ledger is DEDUCED (log 59), and so is when non-volatile writes complete (log 102). -/
def Obligations.PowerLedgerAndRails : Prop := Sys2Proof.Machine.LedgerStepSharesTheEnergy ∧ Sys2Proof.Machine.RailsGuardTheSled ∧ Sys2Proof.Machine.ClockStepsAndNvGuard

/-! ### The Tether and the rack -/

/-- The Tether: heartbeats and the timeout of an end, which takes it DOWN, raises LINK_DOWN and loses what needs the twin (R381, R396); lane loss, which leaves a link of 8 to 15 lanes DEGRADED (R382);
training, which starts by itself once both ends of a link are enabled and down, and at RETRAIN, and ends UP, DEGRADED or, the third time with fewer than 8 lanes, FAILED (Table 12.1); and frames of a
reserved type, which are discarded and counted (R383). What a loss of more than 8 lanes and EN = 0 do is DEDUCED (log 98). -/
def Obligations.TetherStatesFollowTheirEvents : Prop :=
  ∀ (who : Requester) (sl : SledId) (lanes : Nat) (type : BitVec 8) (s : State), let d := s.sled sl; let w := twinOf sl
    let ev := fun (d : Sled) k => bit (d.r32 .twnEvent) k = true
    (s.linked sl = false → exec (.heartbeat sl) s = .next s) ∧
    (s.linked sl = true → ∃ t, exec (.heartbeat sl) s = .next t ∧ t.now = max s.now (d.tether.sent + 10000) ∧ (t.sled sl).tether.sent = t.now ∧ (t.sled w).tether.heard = t.now ∧
      (t.sled sl).r64 .twnTxBytes = d.r64 .twnTxBytes + 20 ∧ (t.sled w).r64 .twnRxBytes = (s.sled w).r64 .twnRxBytes + 20) ∧
    (d.tetherUp = false → exec (.tetherLinkTimeout sl) s = .next s) ∧
    (d.tetherUp = true → ∃ t t1 : State, exec (.tetherLinkTimeout sl) s = .next t ∧ t = (t1.tetherLost sl).trainLink sl ∧ t1.now = max s.now (d.tether.heard + 100000) ∧
      (t1.sled sl).linkState = 0 ∧ ev (t1.sled sl) 0 ∧ (d.serial.console.dead = false → bit (d.r32 .twnEventEn) 0 = true → (.sled sl, .twin 0) ∈ t1.reports)) ∧
    (let off := fun (k : SledId) => (s.sled k).linkOn = true ∧ ((s.sled k).linkState = 0 ∨ (s.sled k).linkState = 1);
      (off sl → off w → ∀ e ∈ [sl, w], ((s.trainLink sl).sled e).linkState = 1) ∧ (¬(off sl ∧ off w) → s.trainLink sl = s)) ∧
    (∃ t, exec (.tetherLaneLoss sl lanes) s = .next t ∧ ∀ e ∈ [sl, w], let d := s.sled e; let d' := t.sled e; let fewer := d.tetherUp = true ∧ lanes < fld (d.r32 .twnLinkStatus) 12 8
      (fewer → 8 ≤ lanes → d'.linkState = 3 ∧ fld (d'.r32 .twnLinkStatus) 12 8 = lanes ∧ ev d' 2) ∧ (fewer → lanes < 8 → d'.linkState = 1 ∧ fld (d'.r32 .twnLinkStatus) 12 8 = 0) ∧
      (¬fewer → d' = d)) ∧
    (d.linkOn = true → (s.sled w).linkOn = true → ∃ t, exec (.tetherTrainingDone sl lanes) s = .next t ∧ ∀ e ∈ [sl, w], let d := s.sled e; let d' := t.sled e; let k := d.linkState
      let starts := k = 1
      (starts ∨ k = 3 → 16 ≤ lanes → d'.linkState = 2 ∧ fld (d'.r32 .twnLinkStatus) 12 8 = 16 ∧ ev d' 1) ∧
      (starts → 8 ≤ lanes → lanes < 16 → d'.linkState = 3 ∧ fld (d'.r32 .twnLinkStatus) 12 8 = lanes ∧ ev d' 2) ∧
      (starts → lanes < 8 → d'.linkState = (if 2 ≤ d.tether.fails then 4 else 1)) ∧ (k = 3 → lanes < 16 → d' = d) ∧ (k ≠ 1 → k ≠ 3 → d' = d)) ∧
    (∃ t, exec (.tetherRetrain who sl) s = .next t ∧ ∀ e ∈ [sl, w], ((s.sled e).linkOn = true → (t.sled e).linkState = 1 ∧ (t.sled e).tether.fails = 0) ∧
      ((s.sled e).linkOn = false → t.sled e = s.sled e)) ∧
    (type.toNat ∈ frameTypes → exec (.reservedFrame sl type) s = .next s) ∧
    (type.toNat ∉ frameTypes → ∃ t, exec (.reservedFrame sl type) s = .next t ∧ t.sled sl = { d with reservedFrames := d.reservedFrames + 1 })

/-- The oldest frame from one node to another whose body is of a kind. -/
def Sys2Proof.Machine.oldest (s : State) (src dst : Node) (kind : MailBody → Bool) : Option Mail := s.mail.find? fun m => decide (m.dst = dst) && (decide (m.src = src) && kind m.body)

/-- The active Rack Factor takes the ACKs (R396), event frames (R448) and DYING of its sleds (R399), none of an isolated one (R397); the ACK of a lease holder is the verdict for its twin that waits for
it (R396); an ACK that is late makes it queue a PING (R398), and a sled that does not answer it is LOST (R397, R398): isolated, and the lease its twin's. The JOIN of a JOINING sled is decided by the
first rule of Table 12.7 that applies (R402). -/
def Obligations.TheRackFactorFollowsItsSleds : Prop :=
  ∀ (s : State) (sl : SledId) (n : Node) (j : JoinMsg) (m : Mail), let d := s.sled sl; let a := Node.rf s.activeRf; let r := s.rf s.activeRf; let w := twinOf sl
    let gone := { s with mail := s.mail.erase m }
    let open' := s.isolatedPort sl = false
    let joins := oldest s (.sled sl) a (fun b => match b with | .join _ => true | _ => false) = some m ∧ m.body = .join j
    let mayJoin := r.up = true ∧ d.rackState = 1
    (s.isolatedPort sl = true → ∀ c ∈ [(.ack sl : Instr), .mgmtEvent (.sled sl), .dying sl, .join sl s.activeRf], exec c s = .next s) ∧
    (∀ k, open' → oldest s (.sled sl) a (fun b => match b with | .ack _ => true | _ => false) = some m → m.body = .ack k →
      let t := { gone with rack := { s.rack with acked := mset s.rack.acked sl.val (some k) } }
      (mget s.rack.awaits w.val = none → exec (.ack sl) s = .next t) ∧
      (∀ c, mget s.rack.awaits w.val = some c → c.toNat ≤ k.toNat → exec (.ack sl) s = .next (t.verdictAlive w))) ∧
    (∀ e, (∀ q, n = .sled q → s.isolatedPort q = false) → oldest s n a (fun b => match b with | .event _ => true | _ => false) = some m → m.body = .event e →
      exec (.mgmtEvent n) s = .next { gone with rack := { s.rack with events := s.rack.events ++ [(n, e)] } }) ∧
    (open' → oldest s (.sled sl) a (fun b => match b with | .dying => true | _ => false) = some m → exec (.dying sl) s = .next (gone.declareLost sl)) ∧
    (r.up = true → r.bell.running = true → s.counted sl = true → mget s.rack.acked sl.val ≠ some r.count → bit s.rack.late sl.val = false →
      ∃ t, exec (.ackTimeout sl) s = .next t ∧ t.now = max s.now (r.bell.startedAt + 100000) ∧ bit t.rack.late sl.val = true ∧ mget t.rack.pings sl.val = none ∧
        (t.rf s.activeRf).serial.courier.tx = r.serial.courier.tx ++ [{ bytes := [BitVec.ofNat 8 sl.val, 1, BitVec.ofNat 8 r.count.toNat, 0] }]) ∧
    (∀ e, mget s.rack.pings sl.val = some e → bit s.rack.late sl.val = true → s.counted sl = true →
      exec (.sledLost sl) s = .next ((s.upTo (e + 100000)).declareLost sl)) ∧
    (let t := s.declareLost sl; s.counted w = false → t.rackOf sl = 6 ∧ bit t.rack.isolated sl.val = true ∧ (d.ended = false → (t.sled sl).rackState = 6)) ∧
    (s.counted w = true → ∃ t1 : State, s.declareLost sl = (t1.holderGoesOn w true).noSledCheck ∧ t1.rackOf sl = 6 ∧ bit t1.rack.isolated sl.val = true ∧
      (bit (r.r32 .twnRkLease) (sl.val / 2) = decide (sl.val % 2 = 1) →
        bit ((t1.rf s.activeRf).r32 .twnRkLease) (sl.val / 2) = decide (sl.val % 2 = 0) ∧ (t1.sled w).hasLease = true ∧ (t1.sled w).bell.leaseUntil = some ((s.sled w).count + 4))) ∧
    (oldest s (.sled sl) a (fun b => match b with | .join _ => true | _ => false) = none → exec (.join sl s.activeRf) s = .next s) ∧
    (∀ b, b ≠ s.activeRf → exec (.join sl b) s = .next s) ∧
    (open' → joins → ¬mayJoin → exec (.join sl s.activeRf) s = .next gone) ∧
    (open' → joins → mayJoin → d.ended = false → ∃ t, exec (.join sl s.activeRf) s = .next t ∧ mget t.rack.joins sl.val = some j ∧
      let reason := fld ((t.rf s.activeRf).r32 .twnRkSled sl.val) 11 8
      (j.fwMajor ≠ Config.rfFw.1 → t.rackOf sl = 2 ∧ (t.sled sl).rackState = 2 ∧ reason = 1 ∧ t.mail = gone.mail) ∧
      (j.fwMajor = Config.rfFw.1 → (j.digest ≠ r.digest ∨ d.cfgMismatch = true) →
        t.rackOf sl = 2 ∧ (t.sled sl).rackState = 2 ∧ reason = 2 ∧ t.mail = gone.mail ++ [⟨a, .sled sl, .cfg true none⟩]) ∧
      (j.fwMajor = Config.rfFw.1 → j.digest = r.digest → d.cfgMismatch = false → t.rackOf sl = 3 ∧ (t.sled sl).rackState = 3))

/-- TWN_RK_CTL: DRAIN notes the sled (R405), ISOLATE closes its port (R397), RELEASE opens it, and a sled that serves and is LOST or ABSENT then asks to join (R402, R413), PUSH_CFG sends it the
configuration (R402). The standby's state copy carries the active one's registers and rack state (R19), and a standby that missed two of them and whose query of the active one found no answer takes over, at its
next boundary, from the state it holds (R403); the fault of a standby leaves SIMPLEX (R30). A pushed key is written to TWN_KEY and a pushed configuration applied at once, or at the epoch where a
tenant runs (R392, R412). The configuration record is opaque (log 11, log 101), and a draining sled rests on log 92. -/
def Obligations.RackControlAndRoles : Prop :=
  ∀ (who : Requester) (s : State) (sl : SledId) (b : RfId) (m : Mail), let a := s.activeRf; let d := s.sled sl; let gone := { s with mail := s.mail.erase m }
    let isCfg := fun (m : Mail) => decide (m.dst = .sled sl) && match m.body with | .cfg _ _ => true | _ => false
    (∃ t, exec (.drain who sl) s = .next t ∧ t.sleds = s.sleds ∧ ∀ o : SledId, bit t.rack.drains o.val = (decide (o = sl) || bit s.rack.drains o.val)) ∧
    (∃ t, exec (.isolate who sl) s = .next t ∧ t.sleds = s.sleds ∧ ∀ o : SledId, t.isolatedPort o = (decide (o = sl) || s.isolatedPort o)) ∧
    let serves := fld (d.r32 .service) 2 0 = 1 ∨ fld (d.r32 .service) 2 0 = 2; let out := s.rackOf sl = 0 ∨ s.rackOf sl = 6
    (∃ t, exec (.release who sl) s = .next t ∧ (∀ o : SledId, t.isolatedPort o = (!decide (o = sl) && s.isolatedPort o)) ∧ (¬(serves ∧ out) → t.sleds = s.sleds ∧ t.mail = s.mail) ∧
      (serves → out → t.rackOf sl = 1 ∧ ∃ j, (⟨.sled sl, .rf a, .join j⟩ : Mail) ∈ t.mail)) ∧
    (exec (.pushCfg who sl) s = .next { s with mail := s.mail ++ [⟨.rf a, .sled sl, .cfg true none⟩] }) ∧
    (b = a ∨ (s.rf b).up = false ∨ (s.rf a).up = false → exec (.rfStateCopy b) s = .next s) ∧
    (b ≠ a → (s.rf b).up = true → (s.rf a).up = true → ∃ t, exec (.rfStateCopy b) s = .next t ∧ t.rf b = { (s.rf b).copyFrom (s.rf a) with copyGot := true, copy := s.rack } ∧ t.sleds = s.sleds) ∧
    (b = a ∨ (s.rf b).up = false ∨ (s.rf b).bell.running = false ∨ (s.rf b).missed < 2 ∨ (s.rf b).askedEnd = none → exec (.rfTakeover b) s = .next s) ∧
    (∀ e, b ≠ a → (s.rf b).up = true → (s.rf b).bell.running = true → 2 ≤ (s.rf b).missed → (s.rf b).askedEnd = some e → let at' := max s.now (e + 100000)
      ∃ t : State, exec (.rfTakeover b) s = .next ((t.activeBoundary b).renewLeases b) ∧ t.now = at' ∧ t.activeRf = b ∧ (t.rf a).up = false ∧ (t.rf b).activeAt = at' ∧
        (t.rf b).missed = 0 ∧ bit ((t.rf b).r32 .twnRkRole) 2 = true ∧ (t.rf b).count = (s.rf b).count ∧ (∀ p, p < 4 → (mget t.rack.videos p).frame = none) ∧
        t.rack.isolated = s.rack.isolated ∧ t.rack.joins = (s.rf b).copy.joins ∧ t.rack.drains = (s.rf b).copy.drains ∧ ((s.rf b).serial.console.dead = false → (.rf b, .rackSimplex) ∈ t.reports)) ∧
    (let o := otherRf a; ((s.rf o).up && (s.rf a).up) = false → exec .rackSimplex s = .next s) ∧
    (let o := otherRf a; (s.rf o).up = true → (s.rf a).up = true → ∃ t, exec .rackSimplex s = .next t ∧ (t.rf o).up = false ∧ bit ((t.rf a).r32 .twnRkRole) 2 = true ∧
      (.rf a, .rackSimplex) ∈ t.rack.events ∧ ((s.rf a).serial.console.dead = false → t.reports = s.reports ++ [(.rf a, .rackSimplex)])) ∧
    (d.ended = true ∨ s.isolatedPort sl = true → exec (.cfg sl) s = .next s) ∧
    (d.ended = false → s.isolatedPort sl = false → s.mail.find? isCfg = some m →
      (∀ k, m.body = .cfg false (some k) → ∃ t, exec (.cfg sl) s = .next t ∧ t.mail = gone.mail ∧ ∀ n, n < 8 → (t.sled sl).r32 .twnKey n = k.extractLsb' (32 * n) 32) ∧
      (m.body = .cfg true none → (∃ u, d.active u = true) → ∃ t, exec (.cfg sl) s = .next t ∧ t.mail = gone.mail ∧ t.sled sl = { d with cfgWaits := true }) ∧
      (m.body = .cfg true none → (∀ u, d.active u = false) → exec (.cfg sl) s = .next (gone.applyCfg sl)))

/-! ### Frames of the twins -/

/-- PAGE is written over the twin's page, its old contents journalled for Standby (R387), and a journal without room ends the send (R388); SNAP is kept for the COMMIT, which waits for
every page of its send; RESILVER ends the replica it writes over (R406); DIGEST decides the tick with this sled's own: equal digests of clean ticks make a new checkpoint (R393). Nothing
comes over a Tether that is not up. The size of a journal (log 48) and what a snapshot holds (log 45) are DEDUCED. -/
def Obligations.TwinFramesTakeEffect : Prop :=
  ∀ (s : State) (sl : SledId) (m : Mail) (u : TenantId), let gone := { s with mail := s.mail.erase m }
    let first := fun (kind : MailBody → Bool) => s.mail.find? (fun m => decide (m.dst = .sled sl) && kind m.body) = some m
    let after := fun n => (gone.heardTether sl).tetherBytes sl u n
    (s.linked sl = false → ∀ c ∈ [(.page sl : Instr), .snap sl, .commit sl, .digest sl, .resilver sl], exec c s = .next s) ∧
    (s.linked sl = true →
      (∀ p v, first (fun b => match b with | .page _ _ _ => true | _ => false) → m.body = .page u p v → let e := (after 65836).sled sl
        let sent := (after 65836).onSled (twinOf sl) fun _ d => d.onTwin u fun w => { w with unsent := w.unsent.filter (· ≠ p) }
        let old := e.pageOut (sent.ctx sl) p
        ∃ t, exec (.page sl) s = .next t ∧
          (((after 65836).sled (twinOf sl)).mirror u = true → t.sled sl = e.pageIn p v) ∧
          (((after 65836).sled (twinOf sl)).mirror u = false → e.journalUsed + 65536 ≤ (e.r64 .twnJournalSize).toNat →
            t.sled sl = (old.1.onTwin u fun w => { w with old := w.old ++ [(p, old.2)] }).pageIn p v) ∧
          (((after 65836).sled (twinOf sl)).mirror u = false → (e.r64 .twnJournalSize).toNat < e.journalUsed + 65536 → t = sent.journalFull sl u)) ∧
      (∀ p, first (fun b => match b with | .snap _ _ => true | _ => false) → m.body = .snap u p →
        ∃ t, exec (.snap sl) s = .next t ∧ ((t.sled sl).twin u).newSnap = some p ∧ (t.sled sl).tether.heard = s.now) ∧
      (first (fun b => match b with | .commit _ => true | _ => false) → m.body = .commit u →
        ((∃ f ∈ s.mail, f.dst = .sled sl ∧ ∃ p v, f.body = .page u p v ∨ ∃ k, f.body = .snap u k) → exec (.commit sl) s = .next s) ∧
        ((∀ f ∈ s.mail, f.dst = .sled sl → (∀ p v, f.body ≠ .page u p v) ∧ ∀ k, f.body ≠ .snap u k) → exec (.commit sl) s = .next ((after 0).commitSend sl u))) ∧
      (∀ p v, first (fun b => match b with | .resilver _ _ _ => true | _ => false) → m.body = .resilver u p v →
        ∃ t, exec (.resilver sl) s = .next t ∧ t.sled sl = (((after 65836).sled sl).onTwin u fun w => { w with replica := none }).pageIn p v) ∧
      (∀ a b, first (fun b => match b with | .digest _ _ => true | _ => false) → m.body = .digest u b → ((s.sled sl).twin u).mine = some a → a.d = b.d → a.overran = [] → b.overran = [] →
        a.full = false → b.full = false → ∃ t, exec (.digest sl) s = .next t ∧ let w := (t.sled sl).twin u
          w.mine = none ∧ w.theirs = none ∧ w.waiting = false ∧ w.firstMiss = none ∧ w.snap = some ((s.sled sl).snapOf u) ∧ ∀ l ∈ (t.sled sl).undo, l.tenant ≠ u))

/-! ### The Porters -/

/-- A Porter takes its oldest entry when that is of the command's kind and may run (R214, R219): where no range is under conversion it is running, and its run has moved nothing yet. PORTER_COMPLETE moves
what is left and ends the entry (R213, R216), but for a carried entry and one over a range under conversion (R201). PRT_CTL.EN needs 256 MiB of scratch (Table 6.14). That a Porter moves its bytes at PORTER_COMPLETE is the model's choice (log 31). -/
def Obligations.PortersRunTheirEntries : Prop :=
  ∀ (who : Requester) (sl : SledId) (die : DieId) (v : Word32) (s : State), let d := s.sled sl
    let may := fun (i : Item) (op : Nat) => bit (d.r32 .prtCtl die) 0 = true ∧ d.mayRun i.id = true ∧ d.porter die = none ∧ i.st = .queued ∧ fld (i.word 0) 7 0 = op ∧ d.fenced i.tenant = false
    let poor := bit v 0 = true ∧ (d.r64 .prtScratchSize die).toNat < 2 ^ 28
    (∀ c op, (c, op) ∈ [((.porterCopy sl die : Instr), 0), (.porterFill sl die, 1)] →
      ((∀ i, (d.unitItems 6 die).head? = some i → ¬may i op) → exec c s = .next s) ∧
      (∀ i, (d.unitItems 6 die).head? = some i → may i op →
        exec c s = .next (s.portStart sl die i) ∧ (d.noStall → ∃ t r, exec c s = .next t ∧ (t.sled sl).porter die = some r ∧ r.item = i.id ∧ r.moved = 0 ∧
          (r.fault = 0 → r.total = fld (i.word 0) 63 32 * fld (i.word 3) 31 0 ∧ r.fill = if op = 0 then none else some (i.word 1))))) ∧
    (d.porter die = none → exec (.porterComplete sl die) s = .next s) ∧
    (∀ r, d.porter die = some r → d.mayRun r.item = false ∨ d.portStalls (s.ctx sl) r = true → exec (.porterComplete sl die) s = .next s) ∧
    (∀ r, d.porter die = some r → d.mayRun r.item = true → d.portStalls (s.ctx sl) r = false → ∃ t t1 : State, exec (.porterComplete sl die) s = .next t ∧
      t1 = s.portMoves sl die ((r.total - r.moved + 4095) / 4096) ∧ t = t1.onSled sl (fun _ d => (d.setPorter die none).finish r.item r.status r.fault) ∧
      (t.sled sl).porter die = none ∧ (∀ q, (t1.sled sl).porter die = some q → q.moved = max r.moved r.total)) ∧
    (∃ t, exec (.prtCtlWrite who sl die v) s = .next t ∧ bit ((t.sled sl).r32 .prtCtl die) 0 = (bit v 0 && !decide poor) ∧ bit ((t.sled sl).r32 .prtStatus die) 1 = decide poor)

/-! ### The Traversal Engines and probes -/

/-- A ring's control register refuses to move, resize or disable a ring with work in flight, and to enable one that is misshapen, with CFG_BAD; a good enable starts the ring from its header
(R285, R310). RESUME clears the stall of a ring (R287, R310). A released engine whose pool is empty becomes free (R258). That a ring takes TAIL from its header when it is enabled is the model's choice (log 30). -/
def Obligations.RingControlsAndHolders : Prop :=
  ∀ (who : Requester) (sl : SledId) (e : EngineId) (h : RingId) (v : Word32) (s : State), let d := s.sled sl; let x : Ctx := s.ctx sl
    (∀ c res rr, (c, res, rr) ∈ [((.teHqCtlWrite who sl e h v : Instr), (.teHqResume who sl e h : Instr), hitRing), (.prbRqCtlWrite who sl e h v, .prbRqResume who sl e h, resRing)] →
      let old := d.r32 rr.ctl e h
      let cb := fun (w : Word32) => if rr.probe then 0 else fld w 20 16
      let held := d.inflight e h rr.probe ≠ 0 ∧ (fld v 29 24 ≠ fld old 29 24 ∨ fld v 12 8 ≠ fld old 12 8 ∨ cb v ≠ cb old ∨ (bit old 0 = true ∧ bit v 0 = false))
      let shape := fun (lg size base hdr : Nat) => 4 ≤ lg ∧ lg ≤ 16 ∧ base % (2 ^ lg * size) = 0 ∧ hdr % 64 = 0
      let good := shape (fld v 12 8) 32 (d.r64 rr.base e h).toNat (d.r64 rr.hdr e h).toNat ∧
        (rr.probe = false → shape (fld v 20 16) 64 (d.r64 .teHqCbBase e h).toNat (d.r64 .teHqCbHdr e h).toNat)
      let stored := v &&& BitVec.ofNat 32 (regInfo rr.ctl).rw
      (held → ∃ t, exec c s = .next t ∧ t.sled sl = d.setRegBit rr.status 1 true e h) ∧
      (¬held → bit v 0 = true → ¬good → ∃ t, exec c s = .next t ∧ (t.sled sl).r32 rr.ctl e h = stored &&& ~~~1#32 ∧ bit ((t.sled sl).r32 rr.status e h) 1 = true) ∧
      (¬held → bit v 0 = false ∨ (good ∧ bit old 0 = true) →
        ∃ t, exec c s = .next t ∧ (t.sled sl).r32 rr.ctl e h = stored ∧ bit ((t.sled sl).r32 rr.status e h) 1 = false ∧ (t.sled sl).engines = d.engines) ∧
      (¬held → bit v 0 = true → good → bit old 0 = false → let go := if bit v 2 then d.setRegBit rr.status 0 false e h else d
        ∃ t, exec c s = .next t ∧ t.sled sl = ((go.w32 rr.ctl stored e h).setRegBit rr.status 1 false e h).openRing x rr e h (tenantOf (fld v 29 24))) ∧
      (∃ t, exec res s = .next t ∧ t.sled sl = d.setRegBit rr.status 0 false e h ∧ bit ((t.sled sl).r32 rr.status e h) 0 = false)) ∧
    (∀ rr ∈ [hitRing, resRing], ∀ u d1 bs, d.eRead x u ((d.r64 rr.hdr e h).toNat + 8) 4 = (d1, .ok bs) → let r := (d.openRing x rr e h u).ring rr e h
      r.seq = ofBytes 32 bs ∧ r.tail = ofBytes 32 bs ∧ r.ahead = []) ∧
    ((d.eng e).draining = true → (d.eng e).used = [] → ∃ t, exec (.engineDrainDone sl e) s = .next t ∧ (t.sled sl).eng e = { d.eng e with holder := none, draining := false }) ∧
    ((d.eng e).draining = false ∨ (d.eng e).used ≠ [] → ∃ t, exec (.engineDrainDone sl e) s = .next t ∧ t.sled sl = d)

/-- A caravan is a group of at most 64 walking rays of one key, and each takes a step (R272); a probe in the pool takes a step of its walk (R303). The record of a ray or probe that has ended is written to
the ring its descriptor named, at the next position, or at its own where the ring is in order, TAIL moving over what is written without gaps; where that position is still the reader's it waits (R274, R275,
R285, R304, R306). A suspended ray's record goes to its callback ring likewise (R278, R292). A stalled ring takes none (R287). A probe that found keys writes its list first, once (R298). Nothing is
done for a job that has not come that far. Which group a caravan takes is the model's choice (log 78). -/
def Obligations.RaysAndProbesAdvance : Prop :=
  ∀ (sl : SledId) (e : EngineId) (k : Fin 65536) (s : State), let d := s.sled sl; let x : Ctx := s.ctx sl; let j := d.slot e k; let u := (d.eng e).tenant; let q := j.queue
    let c := d.caravan x e
    let hdr := j.desc.cbHdr.toNat
    (c.length ≤ 64 ∧ (∀ w ∈ c, w ∈ d.walking e) ∧ ∀ w ∈ c, ∀ w' ∈ c, caravanKey w.2.1.desc.caravan w.2.2 = caravanKey w'.2.1.desc.caravan w'.2.2) ∧
    (c = [] → ∃ t, exec (.caravanDispatch sl e) s = .next t ∧ t.sled sl = d) ∧
    (c ≠ [] → ∃ t, exec (.caravanDispatch sl e) s = .next t ∧ t.sled sl = c.foldl (fun d w => d.stepSlot x e w) ((d.evictNodes x e).wrap64 .teCaravans e 1)) ∧
    (∀ p, j.job = .probe p → p.ended = none → d.mayRun j.item = true → let z := (d.evictNodes x e).probeStep x e u p
      ∃ t, exec (.probeNodeVisit sl e k) s = .next t ∧ (t.sled sl).slot e k = { j with job := .probe z.2.1 } ∧
        (t.sled sl).r64 .teVisits e = z.1.r64 .teVisits e + BitVec.ofNat 64 z.2.2.visits) ∧
    ((∀ p, j.job ≠ .probe p) ∨ (∃ p, j.job = .probe p ∧ p.ended ≠ none) ∨ d.mayRun j.item = false → ∃ t, exec (.probeNodeVisit sl e k) s = .next t ∧ t.sled sl = d) ∧
    (∀ r, j.job = .ray r →
      (r.susp = none ∨ (∃ sp, r.susp = some sp ∧ sp.recVa ≠ none) ∨ bit (d.r32 .teHqStatus e q) 0 = true ∨ d.mayRun j.item = false →
        ∃ t, exec (.callbackPost sl e k) s = .next t ∧ t.sled sl = d) ∧
      (∀ sp d1 head, r.susp = some sp → sp.recVa = none → bit (d.r32 .teHqStatus e q) 0 = false → d.mayRun j.item = true → d.ringHead x u hdr = (d1, some head, none) →
        let size := 2 ^ fld (d1.r32 .teHqCtl e q) 20 16
        let tail := (d1.ring hitRing e q).cbTail
        let va := j.desc.cbBase.toNat + tail.toNat % size * 64
        (size ≤ (tail - head).toNat → ∃ t, exec (.callbackPost sl e k) s = .next t ∧ t.sled sl = d1.setSlot e k { j with waits := true }) ∧
        (∀ d2 d3, (tail - head).toNat < size → d1.eWrite x u va (r.callback sp k e j.gen) = (d2, none) → d2.eWrite x u (hdr + 8) (toBytes (tail + 1) 4) = (d3, none) →
          let d4 := ((d3.onRing hitRing e q fun g => { g with cbTail := tail + 1 }).setSlot e k
            { j with waits := false, job := .ray { r with susp := some { sp with recVa := some va } } }).wrap64 .teCallbacks e 1
          ∃ t, exec (.callbackPost sl e k) s = .next t ∧ t.sled sl = if j.desc.cbHandle = 0 then d4 else d4.event x u 3 j.desc.cbHandle)) ∧
      (r.ended = none ∨ d.mayRun j.item = false → ∃ t, exec (.hitRecordWrite sl e k) s = .next t ∧ t.sled sl = d) ∧
      (r.ended ≠ none → d.mayRun j.item = true → ∃ t, exec (.hitRecordWrite sl e k) s = .next t ∧ t.sled sl = (d.writeRecord x hitRing e k r.record).1)) ∧
    (∀ p, j.job = .probe p → let l := d.listProbe x e k p
      (p.ended = none ∨ d.mayRun j.item = false → ∃ t, exec (.probeResultWrite sl e k) s = .next t ∧ t.sled sl = d) ∧
      (p.ended ≠ none → d.mayRun j.item = true → ∃ t, exec (.probeResultWrite sl e k) s = .next t ∧ t.sled sl = (l.1.writeRecord x resRing e k l.2.record).1) ∧
      (p.ended ≠ some 0 ∨ p.listed = true → l = (d, p)) ∧
      (∀ d1, p.ended = some 0 → p.listed = false → d.writeList x u e j.item p = (d1, { p with listed := true }) → l.2 = { p with listed := true } ∧
        l.1.r64 .prbProbesOut e = d1.r64 .prbProbesOut e + 1 ∧ l.1.r64 .prbCands e = d1.r64 .prbCands e + BitVec.ofNat 64 p.found.length)) ∧
    (∀ rr ∈ [hitRing, resRing], ∀ bytes, (bit (d.r32 rr.status e q) 0 = true → d.writeRecord x rr e k bytes = (d, false)) ∧ (j.ord = true → d.recordPos rr e k = j.seq) ∧
      (∀ d1 head, bit (d.r32 rr.status e q) 0 = false → d.ringHead x u j.desc.hdr.toNat = (d1, some head, none) →
        let hdr := j.desc.hdr.toNat
        let size := 2 ^ fld (d1.r32 rr.ctl e q) 12 8
        let g := d1.ring rr e q
        let pos := d1.recordPos rr e k
        let done := fun (d : Sled) (g' : Ring) => let d4 := (d.onRing rr e q fun _ => { g' with since := g.since + 1 }).swapSeq rr e k pos
          d.writeRecord x rr e k bytes = (((d4.setSlot e k { d4.slot e k with job := .none, waits := false }).ringEvents x rr e u j).endBatch j.item, true)
        (size ≤ (pos - head).toNat → d.writeRecord x rr e k bytes = (d1.setSlot e k { j with waits := true }, false)) ∧
        (∀ d2, (pos - head).toNat < size → d1.eWrite x u (j.desc.base.toNat + pos.toNat % size * 32) bytes = (d2, none) →
          (pos ≠ g.tail → g.tail ∉ g.ahead → done d2 { g with ahead := g.ahead ++ [pos] }) ∧
          (∀ d3, pos = g.tail → g.ahead = [] → d2.eWrite x u (hdr + 8) (toBytes (g.tail + 1) 4) = (d3, none) → done d3 { g with tail := g.tail + 1, ahead := [] }))))

/-! ### The Raster Front Ends and the compositor -/

/-- An RFE runs one entry at a time, compositor entries first (R343), each step of it under its operation's name; a pass descriptor that cannot be read or breaks a rule ends its entry as
ILLEGAL (R321, R340). CLEAR goes by tiles, or by surfaces where they clear fast, BLEND and RESOLVE by tiles, VIS and FRAG bin by chunks (R341); a binning that runs out of bin memory raises WAIT with the
pages it needs and leaves the RFE (R330), and GO and FLUSH answer it (R331). That one command is one such step is the model's choice (log 40), and which surfaces are needed is DEDUCED (log 39). -/
def Obligations.RasterEntriesRun : Prop :=
  ∀ (who : Requester) (sl : SledId) (r : DieId) (u : TenantId) (s : State) (i : Item), let d := s.sled sl; let x : Ctx := s.ctx sl; let cur := (d.rfe r).cur
    let here := cur = some i.id ∧ d.item i.id = some i
    (∀ j, d.rfeNext r = some j → j ∈ d.rfeReady r ∧ ((∃ c ∈ d.rfeReady r, c.cmp = true) → j.cmp = true)) ∧
    (∀ c op, (c, op) ∈ [((.clear sl r : Instr), 0), (.vis sl r, 1), (.frag sl r, 2), (.blend sl r, 3), (.resolve sl r, 4)] →
      (cur = none → (∀ j, d.rfeNext r = some j → j.oper ≠ op) → ∃ t, exec c s = .next t ∧ t.sled sl = d) ∧
      (cur = none → d.rfeNext r = some i → i.oper = op →
        let taken := ((d.onRfe r fun f => { f with cur := some i.id, since := s.now }).onItem i.id fun j => { j with st := .running }).rfeResume x r i
        ∃ t, exec c s = .next t ∧ t.sled sl = taken.rasterStep x r op) ∧
      (here → i.oper ≠ op ∨ d.mayRun i.id = false → ∃ t, exec c s = .next t ∧ t.sled sl = d) ∧
      (here → i.oper = op → d.mayRun i.id = true → d.prog r i.id = none → let pass := (i.word 0).toNat
        let illegal := fun (d1 : Sled) => ∃ t, exec c s = .next t ∧ t.sled sl = (d1.rasterIllegal x i 0).rfeEnd x r i.id 3 7
        (∀ d1 f, d.uRead x i.tenant false pass 448 = (d1, .fault f) → illegal d1) ∧
        (∀ d1 bs bad, d.uRead x i.tenant false pass 448 = (d1, .ok bs bad) →
          bad.any id = true ∨ pass % 512 ≠ 0 ∨ passLegal bs i.oper (fld (i.word 2) 7 0) = false ∨ (i.cmp = true ∧ d1.compHolder ≠ some i.tenant) → illegal d1)) ∧
      (∀ p, here → i.oper = op → d.mayRun i.id = true → d.prog r i.id = some p → let env := rEnv x i p.desc; let a : RAcc := ⟨d, 0, p.fault⟩; let smask := fld (i.word 2) 7 0
        let last := (selected smask).length * env.nTiles
        let goes := fun (a : RAcc) (n : Nat) => ∃ t, exec c s = .next t ∧ t.sled sl = a.d.setProg r { p with tile := n, fault := a.fault, resid := p.resid ||| a.resid }
        let ends := fun (a : RAcc) => let b := env.putResid a (p.resid ||| a.resid); ∃ t, exec c s = .next t ∧ t.sled sl = b.d.rfeEnd x r i.id 0 b.fault
        (op = 0 → p.tile < last → let q := env.clearStep a p.desc smask p.tile; (q.2 < last → goes q.1 q.2) ∧ (last ≤ q.2 → ends q.1)) ∧
        (op = 4 → p.tile < last → let b := env.resolveStep a p.desc smask p.tile; (p.tile + 1 < last → goes b (p.tile + 1)) ∧ (last ≤ p.tile + 1 → ends b)) ∧
        (∀ o, op = 3 → p.off = some o → let b := env.blendTile a p.desc o p.tile; (p.tile + 1 < env.nTiles → goes b (p.tile + 1)) ∧ (env.nTiles ≤ p.tile + 1 → ends b)) ∧
        (op = 1 ∨ op = 2 → p.phase = .bin → ∃ t, exec c s = .next t ∧ t.sled sl = d.binStep x r i p (decide (op = 2))) ∧
        (op = 1 ∨ op = 2 → ∃ t, exec c s = .next t ∧ t.sled sl = d.visStep x r i p (decide (op = 2))))) ∧
    (∀ p n, d.r32 .rfeGrowHandle i.tenant r = 0 → let e := d.rfeGrow x r i p n
      bit (e.r32 .rfeGrowCtl i.tenant r) 2 = true ∧ e.r32 .rfeGrowNeed i.tenant r = BitVec.ofNat 32 (max 1 n) ∧ (e.rfe r).cur = none ∧ e.prog r p.item = some { p with waiting := true, answer := none }) ∧
    (∀ c flush, (c, flush) ∈ [((.rfeGrowGo who sl u r : Instr), false), (.rfeGrowFlush who sl u r, true)] →
      (bit (d.r32 .rfeGrowCtl u r) 2 = false → ∃ t, exec c s = .next t ∧ t.sled sl = d) ∧
      (bit (d.r32 .rfeGrowCtl u r) 2 = true → ∃ t, exec c s = .next t ∧ bit ((t.sled sl).r32 .rfeGrowCtl u r) 2 = false ∧
        (t.sled sl).rfe r = { d.rfe r with progs := (d.rfe r).progs.map fun p => if p.waiting = true ∧ ((d.item p.item).map (·.tenant)) = some u then { p with answer := some flush } else p }))

/-- The compositor: a write of its control that names a tenant that is a Mirror or not enabled, or grants a port not bound to this sled, is refused (R344, R508). PRESENT hands over colour target 0 of the port's own raster, and is ILLEGAL otherwise (R347); a compositor entry that may run pauses another tenant's (R343). At a presentation boundary
the output takes the surface presented, or repeats its own and is late (R345). When a port's control is checked and LATE advances is DEDUCED (log 88). -/
def Obligations.CompositorOwnsItsPort : Prop :=
  ∀ (who : Requester) (sl : SledId) (r : DieId) (v : Word32) (s : State) (i : Item), let d := s.sled sl; let x : Ctx := s.ctx sl
    let w := v &&& BitVec.ofNat 32 (regInfo .rfeCmpCtl).rw
    let vid := (s.rf s.activeRf).r32 .rfeVidCtl (fld w 2 1)
    let refuses := d.mirror (tenantOf (fld w 29 24)) = true ∨ d.active (tenantOf (fld w 29 24)) = false ∨ (bit w 0 = true ∧ (bit vid 1 = false ∨ fld vid 11 8 ≠ sl.val))
    let bad := fun (d : Sled) => bit (d.r32 .rfeCmpStatus) 0
    let raster := (s.rf s.activeRf).r32 .rfeVidRaster (fld (d.r32 .rfeCmpCtl) 2 1)
    (refuses → ∃ t, exec (.rfeCmpCtlWrite who sl v) s = .next t ∧ (t.sled sl).r32 .rfeCmpCtl = d.r32 .rfeCmpCtl ∧ bad (t.sled sl) = true) ∧
    (¬refuses → ∃ t, exec (.rfeCmpCtlWrite who sl v) s = .next t ∧ (t.sled sl).r32 .rfeCmpCtl = w ∧ bad (t.sled sl) = false) ∧
    (∀ p, (d.rfe r).cur = some i.id → d.item i.id = some i → i.oper = 5 → d.mayRun i.id = true → d.prog r i.id = some p → let f := surfOf p.desc 2
      let fits := (f.fmt = 2 ∨ f.fmt = 3) ∧ num p.desc 4 4 % 16 = 1 ∧ num p.desc 0 2 = fld raster 15 0 ∧ num p.desc 2 2 = fld raster 31 16
      ∃ t, exec (.present sl r) s = .next t ∧
        (fits → t.sled sl = { d with compositor := { d.compositor with presented := some ⟨BitVec.ofNat 64 f.base, f.fmt, f.pitch⟩ } }.rfeEnd x r i.id 0 0) ∧
        (¬fits → t.sled sl = (d.rasterIllegal x i 0).rfeEnd x r i.id 3 7)) ∧
    ((d.rfe r).cur = none → ∃ t, exec (.rfeCmpPreempt sl r) s = .next t ∧ t.sled sl = d) ∧
    ((d.rfe r).cur = some i.id → d.item i.id = some i → let waits := ∃ j ∈ d.rfeReady r, j.cmp = true ∧ j.tenant ≠ i.tenant
      (waits → ∃ t, exec (.rfeCmpPreempt sl r) s = .next t ∧ ((t.sled sl).rfe r).cur = none ∧ ((t.sled sl).rfe r).progs = (d.rfe r).progs) ∧
      (¬waits → ∃ t, exec (.rfeCmpPreempt sl r) s = .next t ∧ t.sled sl = d)) ∧
    (d.presentDue = false → d.presentation x = d) ∧
    (d.presentDue = true → bit (d.r32 .rfeCmpCtl) 0 = true → let e := d.presentation x
      (∀ p, d.compositor.presented = some p → e.compositor.out = some p ∧ e.compositor.presented = none ∧ e.r64 .rfeCmpSurf = p.va ∧ bit (e.r32 .rfeCmpStatus) 1 = true) ∧
      (d.compositor.presented = none → bit (d.r32 .rfeCmpStatus) 1 = true → (e.r32 .rfeCmpLate).toNat = min ((d.r32 .rfeCmpLate).toNat + 1) (2 ^ 32 - 1)))

/-- RFE_CMP_STRIDE refuses a stride of 0 and a phase not below it: nothing changes but CFG_BAD, which an accepted write clears; the boundaries go by the value last accepted (R346). -/
def Obligations.StrideWritesAreChecked : Prop :=
  ∀ (who : Requester) (sl : SledId) (v : Word32) (s : State), let d := s.sled sl; let no := fld v 15 0 = 0 ∨ fld v 15 0 ≤ fld v 31 16
    ∃ t, exec (.rfeCmpStrideWrite who sl v) s = .next t ∧ bit ((t.sled sl).r32 .rfeCmpStatus) 0 = decide no ∧ (t.sled sl).compositor = d.compositor ∧
      (no → t = s.setSled sl (d.w32 .rfeCmpStatus (setBit (d.r32 .rfeCmpStatus) 0 true))) ∧ (¬no → (t.sled sl).r32 .rfeCmpStride = v)

/-! ### The Depots -/

/-- The compute instructions of the depot machine, each with its opcode and what it does to a kernel (Table 11.2, R355, R359 to R361). -/
def Sys2Proof.Machine.depCompute (sl : SledId) (n : DepotId) : List (Instr × Nat × (Kernel → Word32 → Kernel)) :=
  let lanes := fun (i g : Word32 → Word32 → Word32 → Word32) (k : Kernel) (w : Word32) =>
    k.setV (dD w) (ofLanes fun j => (if dTy w = 0 then i else g) (lane (k.vreg (dA w)) j) (lane (k.vreg (dB w)) j) (lane (k.vreg (dD w)) j))
  let fold := fun (i : Word32 → Word32 → Word32) (g : List Nat → Nat) (k : Kernel) (w : Word32) =>
    let ls := (List.range 8).map (lane (k.vreg (dA w)))
    k.setV (dD w) (ofLanes fun j => if j = 0 then (if dTy w = 0 then ls.tail.foldl i (ls.headD 0) else BitVec.ofNat 32 (g (ls.map BitVec.toNat))) else 0)
  let fp := fun (f : Nat → Nat → FRes) (a b : Word32) => BitVec.ofNat 32 (f a.toNat b.toNat).bits
  let all := fun (b : Bool) => if b then (0xFFFFFFFF : Word32) else 0
  let low := fun (a b : Word32) => if a.toInt < b.toInt then a else b
  let high := fun (a b : Word32) => if a.toInt < b.toInt then b else a
  let fmin := fun a b => (Fmt.fp32.minmax false a b).bits
  let fmax := fun a b => (Fmt.fp32.minmax true a b).bits
  let scalar := fun (f : Word32 → Nat → Word32 → Word32) (k : Kernel) (w : Word32) => k.setA (dD w) (f (k.areg (dA w)) (dImm w) (k.areg (dB w)))
  [(.depAdd sl n, 0x10, lanes (fun a b _ => a + b) fun a b _ => fp (Fmt.fp32.add .near) a b), (.depSub sl n, 0x11, lanes (fun a b _ => a - b) fun a b _ => fp (Fmt.fp32.sub .near) a b),
    (.depMul sl n, 0x12, lanes (fun a b _ => a * b) fun a b _ => fp (Fmt.fp32.mul .near) a b),
    (.depFma sl n, 0x13, lanes (fun a b c => a * b + c) fun a b c => BitVec.ofNat 32 (Fmt.fp32.fma .near a.toNat b.toNat c.toNat).bits),
    (.depMin sl n, 0x14, lanes (fun a b _ => low a b) fun a b _ => fp (Fmt.fp32.minmax false) a b), (.depMax sl n, 0x15, lanes (fun a b _ => high a b) fun a b _ => fp (Fmt.fp32.minmax true) a b),
    (.cmpeq sl n, 0x16, lanes (fun a b _ => all (decide (a = b))) fun a b _ => all (fEq a.toNat b.toNat)),
    (.cmplt sl n, 0x17, lanes (fun a b _ => all (decide (a.toInt < b.toInt))) fun a b _ => all (fLt a.toNat b.toNat)),
    (.cmple sl n, 0x18, lanes (fun a b _ => all (decide (a.toInt ≤ b.toInt))) fun a b _ => all (fLe a.toNat b.toNat)),
    (.sel sl n, 0x19, lanes (fun a b c => if c = 0 then b else a) fun a b c => if c = 0 then b else a)] ++
  [(.redadd sl n, 0x1A, fold (fun a b => a + b) fun l => (Fmt.fp32.sum .near (l.map Fmt.fp32.unpack) false 0).bits), (.redmin sl n, 0x1B, fold low fun l => l.tail.foldl fmin (l.headD 0)),
    (.redmax sl n, 0x1C, fold high fun l => l.tail.foldl fmax (l.headD 0)),
    (.splat sl n, 0x1D, fun k w => k.setV (dD w) (ofLanes fun _ => k.areg (dA w))), (.mova sl n, 0x1E, fun k w => k.setA (dD w) (lane (k.vreg (dA w)) (dImm w))),
    (.vins sl n, 0x1F, fun k w => k.setV (dD w) (ofLanes fun j => if j = dImm w then k.areg (dA w) else lane (k.vreg (dD w)) j)),
    (.boxu sl n, 0x20, fun k w => let a := lane (k.vreg (dA w)); let b := lane (k.vreg (dB w))
      k.setV (dD w) (ofLanes fun j => if j < 3 then fp (Fmt.fp32.minmax false) (a j) (b j) else if j < 6 then fp (Fmt.fp32.minmax true) (a j) (b j) else a j)),
    (.tribox sl n, 0x21, depTribox),
    (.adam sl n, 0x24, fun k w =>
      let r := fun j => adamLane (fun i => (lane (k.vreg 15) i).toNat) (lane (k.vreg (dD w)) j).toNat (lane (k.vreg (dD w + 1)) j).toNat (lane (k.vreg (dD w + 2)) j).toNat (lane (k.vreg (dB w)) j).toNat
      ((k.setV (dD w) (ofLanes fun j => BitVec.ofNat 32 (r j).1)).setV (dD w + 1) (ofLanes fun j => BitVec.ofNat 32 (r j).2.1)).setV (dD w + 2) (ofLanes fun j => BitVec.ofNat 32 (r j).2.2)),
    (.crc sl n, 0x25, fun k w => k.setA (dD w) (crc32c (k.areg (dD w)) (toBytes (k.vreg (dA w)) 32)))] ++
  [(.depMovi sl n, 0x30, scalar fun _ m _ => BitVec.ofNat 32 m), (.addi sl n, 0x31, scalar fun a m _ => a + BitVec.ofInt 32 (if 2048 ≤ m then (m : Int) - 4096 else m)),
    (.andi sl n, 0x32, scalar fun a m _ => a &&& BitVec.ofNat 32 m), (.shli sl n, 0x33, scalar fun a m _ => a <<< m), (.shri sl n, 0x34, scalar fun a m _ => a >>> m),
    (.adda sl n, 0x35, scalar fun a _ b => a + b)]

/-- The other depot instructions with their opcodes (Table 11.2). -/
def Sys2Proof.Machine.depOthers (sl : SledId) (n : DepotId) : List (Instr × Nat) :=
  [(.depEnd sl n, 0), (.depLd sl n, 1), (.depSt sl n, 2), (.ldw sl n, 3), (.stn sl n, 4), (.gather sl n, 5), (.scatter sl n, 6), (.fsend sl n, 7), (.frecv sl n, 8), (.nhdr sl n, 0x22), (.qchild sl n, 0x23),
    (.depBr sl n, 0x38), (.bz sl n, 0x39), (.bnz sl n, 0x3A), (.depLoop sl n, 0x3B)]

/-- The kernel at the head of a Depot's queue after it retired an instruction: it goes on at `ip`, and its time without one starts anew (R354, R357, R373). -/
def Sys2Proof.Machine.DepRetired (d e : Sled) (x : Ctx) (n : DepotId) (k k' : Kernel) (ip : Nat) : Prop :=
  (e.depot n).queue = { k' with last := k.ip, ip := ip, count := k.count + 1, idle := 0, retired := some (d.workTime x), waitSend := false, waitRecv := false } :: (d.depot n).queue.tail

/-- A running kernel executes the legal word it is at, and no command does anything to it for another opcode or an illegal word; a compute instruction writes its kernel's registers alone, NHDR
the smallest exponent that reaches its box on each axis with finite bounds, QCHILD its bounds rounded outward in that scale, and the empty box where an axis has none (R360); a branch goes to its target, and LOOP counts down without going below 0. Memory does not change, and each instruction is counted. Lanes 6 and 7 of TRIBOX and the bits SEL looks at are DEDUCED (log 89); bytes to which the rule gives no value are free (log 35). -/
def Obligations.DepotInstructionsCompute : Prop :=
  ∀ (sl : SledId) (n : DepotId) (s : State) (k : Kernel) (w : Word32), let d := s.sled sl; let x : Ctx := s.ctx sl; let ok := depLegal w k.code.length = true
    d.running n = some k → k.code[k.ip]? = some w →
    (∀ c op, (c, op) ∈ (depCompute sl n).map (fun r => (r.1, r.2.1)) ++ depOthers sl n → dOpc w ≠ op ∨ ¬ok → ∃ t, exec c s = .next t ∧ t.sled sl = d) ∧
    (∀ c op f, (c, op, f) ∈ depCompute sl n → dOpc w = op → ok → ∃ t, exec c s = .next t ∧ DepRetired d (t.sled sl) x n k (f k w) (k.ip + 1) ∧
      (t.sled sl).r64 .depInstr n = d.r64 .depInstr n + 1 ∧ SameBytes s t) ∧
    (dOpc w = 0x22 → ok → ∃ t k', exec (.nhdr sl n) s = .next t ∧ DepRetired d (t.sled sl) x n k k' (k.ip + 1) ∧ SameBytes s t ∧
      let b := lane (k.vreg (dA w)); let h := lane (k'.vreg (dD w)); let ex := fun i => fld (h 3) (8 * i + 7) (8 * i)
      (∀ j, j < 3 → h j = b j) ∧ (∀ j, 4 ≤ j → j < 8 → h j = lane (k.vreg (dD w)) j) ∧ (∀ m, m ≠ dD w → k'.vreg m = k.vreg m) ∧
      fld (h 3) 31 24 = 0 ∧ (∀ i, i < 3 → fFinite (b i).toNat = true → fFinite (b (3 + i)).toNat = true → let span := (f32 (b (3 + i))).add (f32 (b i)).neg
        ex i ≤ 254 ∧ (ex i < 254 → span.le ((expScale (ex i)).mul ⟨255, 0⟩) = true) ∧ ∀ m, m < ex i → span.le ((expScale m).mul ⟨255, 0⟩) = false)) ∧
    (dOpc w = 0x23 → ok → ∃ t k', exec (.qchild sl n) s = .next t ∧ DepRetired d (t.sled sl) x n k k' (k.ip + 1) ∧ SameBytes s t ∧
      let b := fun j => (lane (k.vreg (dA w)) j).toNat; let at' := 0x20 + 12 * dImm w; let h := lane (k.vreg (dD w))
      (∀ p, p < 128 → p < at' ∨ at' + 6 ≤ p → (k'.group (dD w) 4).getD p 0 = (k.group (dD w) 4).getD p 0) ∧
      ((∃ i, i < 3 ∧ fLt (b (3 + i)) (b i) = true) → ∀ p, p < 6 → (k'.group (dD w) 4).getD (at' + p) 0 = if p < 3 then 255 else 0) ∧
      ((∀ i, i < 3 → fLt (b (3 + i)) (b i) = false) → ∀ p, p < 6 → fFinite (b p) = true → fFinite (h (p % 3)).toNat = true →
        (k'.group (dD w) 4).getD (at' + p) 0 =
          BitVec.ofNat 8 (quant (decide (3 ≤ p)) (f32 (lane (k.vreg (dA w)) p)) (f32 (h (p % 3))) (fld (h 3) (8 * (p % 3) + 7) (8 * (p % 3)))))) ∧
    (∀ c op go a', (c, op, go, a') ∈ [((.depBr sl n : Instr), 0x38, true, k.areg (dA w)), (.bz sl n, 0x39, decide (k.areg (dA w) = 0), k.areg (dA w)), (.bnz sl n, 0x3A, decide (k.areg (dA w) ≠ 0), k.areg (dA w)),
        (.depLoop sl n, 0x3B, decide (k.areg (dA w) ≠ 0 ∧ k.areg (dA w) ≠ 1), if k.areg (dA w) = 0 then 0 else k.areg (dA w) - 1)] → dOpc w = op → ok →
      ∃ t k', exec c s = .next t ∧ DepRetired d (t.sled sl) x n k k' (if go then dImm w else k.ip + 1) ∧ k'.areg (dA w) = a' ∧ (∀ m, m ≠ dA w → k'.areg m = k.areg m) ∧ k'.v = k.v ∧ SameBytes s t)

/-- A kernel starts when it comes to the head of its Depot's queue, or ends there where its windows failed (R364). END ends it with status 0, an illegal word with 4 (R356), an access outside its
windows with 2 and an uncorrectable word with 5 (R352), 1,000 µs of work-window time without an instruction, while it may run, with 6 (R373). LD and ST move 32 bytes and step aA, LDW and STN
widen and narrow 16 BF16 values; a store that finds the undo log full waits (R390). -/
def Sys2Proof.Machine.DepotKernelsRunAndEnd : Prop :=
  ∀ (sl : SledId) (n : DepotId) (s : State) (k : Kernel), let d := s.sled sl; let x : Ctx := s.ctx sl; let q := (d.depot n).queue
    (q = [] → ∃ t, exec (.depotKernelStart sl n) s = .next t ∧ t.sled sl = d) ∧
    (q.head? = some k → k.started = true ∨ d.mayRun k.item = false ∨ d.fenced k.tenant = true → ∃ t, exec (.depotKernelStart sl n) s = .next t ∧ t.sled sl = d) ∧
    (q.head? = some k → k.started = false → d.mayRun k.item = true → d.fenced k.tenant = false →
      (k.check = 0 → ∃ t, exec (.depotKernelStart sl n) s = .next t ∧ ((t.sled sl).depot n).queue = { k with started := true, retired := some (d.workTime x) } :: q.tail) ∧
      (∀ r, k.check ≠ 0 → k.checkRec = some r → ∃ t, exec (.depotKernelStart sl n) s = .next t ∧ t.sled sl = (d.stage x k.tenant r).depEnd x n k k.check k.checkFault false)) ∧
    (d.running n = none → (∃ t, exec (.depIllegal sl n) s = .next t ∧ t.sled sl = d) ∧ exec (.depotStallTimeout sl n) s = .next s) ∧
    (d.running n = some k →
      (k.code[k.ip]? = none → ∃ t, exec (.depIllegal sl n) s = .next t ∧ t.sled sl = d.depStop x n k 4) ∧
      (∃ t, exec (.depotStallTimeout sl n) s = .next t ∧ t.sled sl = d.depStop (t.ctx sl) n k 6 ∧ t.now = s.now + (1000000 - (k.idle + ((k.retired.map fun n => d.workTime x - n).getD 0)))) ∧
      (∀ w, k.code[k.ip]? = some w → let legal := depLegal w k.code.length = true; let m := dImm w % 8
        let o := (k.areg (dA w)).toNat + dImm w / 8 % 16 * 32
        let stepped := k.areg (dA w) + BitVec.ofNat 32 (dImm w / 128 * 32)
        let stops := fun (c : Instr) (d : Sled) (st : Nat) => ∃ t, exec c s = .next t ∧ t.sled sl = d.depStop x n { k with last := k.ip } st
        (¬legal → stops (.depIllegal sl n) d 4) ∧
        (legal → ∃ t, exec (.depIllegal sl n) s = .next t ∧ t.sled sl = d) ∧
        (legal → dOpc w = 0 → ∃ t d1, exec (.depEnd sl n) s = .next t ∧ d1 = (d.w64 .depInstr (d.r64 .depInstr n + 1) n).tally k.tenant 13 1 ∧
          t.sled sl = d1.depStop x n { k with last := k.ip, count := k.count + 1 } 0) ∧
        (∀ c op st, (c, op, st) ∈ [((.depLd sl n : Instr), 1, false), (.depSt sl n, 2, true), (.ldw sl n, 3, false), (.stn sl n, 4, true)] → legal → dOpc w = op →
          (k.areg (dA w)).toNat % 32 ≠ 0 ∨ (k.win m).len < o + 32 ∨ (st = true ∧ (k.win m).write = false) → stops c d 2) ∧
        (∀ c op, (c, op) ∈ [((.depLd sl n : Instr), 1), (.ldw sl n, 3)] → legal → dOpc w = op → (k.areg (dA w)).toNat % 32 = 0 → o + 32 ≤ (k.win m).len → let r := d.winRead x n k m o 32
          (r.2.2 = true → stops c r.1 5) ∧
          (r.2.2 = false → ∃ t k', exec c s = .next t ∧ DepRetired d (t.sled sl) x n k k' (k.ip + 1) ∧ k'.areg (dA w) = stepped ∧ (∀ j, j ≠ dA w → k'.areg j = k.areg j) ∧
            (op = 1 → k'.vreg (dD w) = ofBytes 256 r.2.1 ∧ ∀ j, j ≠ dD w → k'.vreg j = k.vreg j) ∧
            (op = 3 → (∀ i, i < 16 → lane (k'.vreg (dD w + i / 8)) (i % 8) = BitVec.ofNat 32 (65536 * num r.2.1 (2 * i) 2)) ∧ ∀ j, j ≠ dD w → j ≠ dD w + 1 → k'.vreg j = k.vreg j))) ∧
        (∀ c op, (c, op) ∈ [((.depSt sl n : Instr), 2), (.stn sl n, 4)] → legal → dOpc w = op → (k.areg (dA w)).toNat % 32 = 0 → k.inWin m o 32 true = true →
          (d.winWaits k m o 32 = true → ∃ t, exec c s = .next t ∧ ((t.sled sl).depot n).queue = { k with last := k.ip } :: q.tail ∧ (t.sled sl).mem = d.mem) ∧
          (d.winWaits k m o 32 = false → ∃ t bs, exec c s = .next t ∧ (t.sled sl).mem = (d.winWrite x n k m o bs).mem ∧ bs.length = 32 ∧
            DepRetired d (t.sled sl) x n k (k.setA (dA w) stepped) (k.ip + 1) ∧ (op = 2 → bs = toBytes (k.vreg (dB w)) 32) ∧
            (op = 4 → ∀ i, i < 16 → num bs (2 * i) 2 = (Fmt.bf16.ofVal .near (Fmt.fp32.unpack (lane (k.vreg (dB w + i / 8)) (i % 8)).toNat) false).bits % 65536)))))

/-- GATHER and SCATTER move eight lanes at their offsets, lane 7 last (R358); one lane outside the window stops the kernel with nothing written. FSEND sends to the Depot of an index of its
launch and waits while that holds 16 messages, FRECV takes the oldest of its tag and launch or waits (R362); a message arrives at its Depot, which takes no seventeenth, or is counted stray where
its kernel has ended (R376). -/
def Sys2Proof.Machine.DepotGathersAndMessages : Prop :=
  ∀ (sl : SledId) (n : DepotId) (s : State) (k : Kernel) (w : Word32) (g : Msg), let d := s.sled sl; let x : Ctx := s.ctx sl; let m := dImm w % 8
    let o := fun j => 4 * (lane (k.vreg (dA w)) j).toNat
    let here := d.running n = some k ∧ k.code[k.ip]? = some w ∧ depLegal w k.code.length = true
    let stops := fun (c : Instr) (d : Sled) (st : Nat) => ∃ t, exec c s = .next t ∧ t.sled sl = d.depStop x n { k with last := k.ip } st
    let waits := fun (c : Instr) (k : Kernel) => ∃ t, exec c s = .next t ∧ ((t.sled sl).depot n).queue = { k with last := k.ip } :: (d.depot n).queue.tail ∧ (t.sled sl).mem = d.mem
    let mine := fun (g : Msg) => decide (g.launch = k.launch ∧ g.tag = BitVec.ofNat 8 (dImm w))
    (here → dOpc w = 5 → (∃ j, j < 8 ∧ (k.win m).len < o j + 4) → stops (.gather sl n) d 2) ∧
    (here → dOpc w = 5 → (∀ j, j < 8 → o j + 4 ≤ (k.win m).len) → ∃ d1 bs bad, (List.range 8).foldl (fun (acc : Sled × List Byte × Bool) j =>
        let r := acc.1.winRead x n k m (o j) 4; (r.1, acc.2.1 ++ r.2.1, acc.2.2 || r.2.2)) (d, [], false) = (d1, bs, bad) ∧
      (bad = true → stops (.gather sl n) d1 5) ∧
      (bad = false → ∃ t, exec (.gather sl n) s = .next t ∧ DepRetired d (t.sled sl) x n k (k.setV (dD w) (ofBytes 256 bs)) (k.ip + 1))) ∧
    (here → dOpc w = 6 → (∃ j, j < 8 ∧ ((k.win m).len < o j + 4 ∨ (k.win m).write = false)) → stops (.scatter sl n) d 2) ∧
    (here → dOpc w = 6 → (∀ j, j < 8 → k.inWin m (o j) 4 true = true) →
      ((∃ j, j < 8 ∧ d.winWaits k m (o j) 4 = true) → waits (.scatter sl n) k) ∧
      ((∀ j, j < 8 → d.winWaits k m (o j) 4 = false) → ∃ t, exec (.scatter sl n) s = .next t ∧ DepRetired d (t.sled sl) x n k k (k.ip + 1) ∧
        (t.sled sl).mem = ((List.range 8).foldl (fun (d : Sled) j => d.winWrite x n k m (o j) (toBytes (lane (k.vreg (dB w)) j) 4)) d).mem)) ∧
    (∀ l, here → dOpc w = 7 → d.launch k.launch = some l → let i := (k.areg (dA w)).toNat; let dest := l.first + i
      (l.count ≤ i → stops (.fsend sl n) d 2) ∧
      (i < l.count → 16 ≤ (d.depot dest).inbox.length → waits (.fsend sl n) { k with waitSend := true }) ∧
      (i < l.count → (d.depot dest).inbox.length < 16 → ∃ t, exec (.fsend sl n) s = .next t ∧ DepRetired d (t.sled sl) x n k k (k.ip + 1) ∧
        (t.sled sl).footpath = d.footpath ++ [⟨dest, n, k.tenant, k.launch, BitVec.ofNat 8 (dImm w), k.index, k.vreg (dB w)⟩] ∧
        (t.sled sl).r64 .depFootMsgs (n.val / 64) = d.r64 .depFootMsgs (n.val / 64) + 1)) ∧
    (here → dOpc w = 8 → (d.depot n).inbox.find? mine = none → waits (.frecv sl n) { k with waitRecv := true }) ∧
    (here → dOpc w = 8 → (d.depot n).inbox.find? mine = some g → ∃ t, exec (.frecv sl n) s = .next t ∧ ((t.sled sl).depot n).inbox = (d.depot n).inbox.erase g ∧
      DepRetired d (t.sled sl) x n k ((k.setV (dD w) g.payload).setA (dA w) (BitVec.ofNat 32 g.index)) (k.ip + 1)) ∧
    ((∀ g ∈ d.footpath, g.dest ≠ n.val) → ∃ t, exec (.footpathMessage sl n) s = .next t ∧ t.sled sl = d) ∧
    (d.footpath.find? (fun g => decide (g.dest = n.val)) = some g → ∃ t, exec (.footpathMessage sl n) s = .next t ∧ let runs := ∃ k ∈ (d.depot n).queue, k.launch = g.launch
      (runs → (d.depot n).inbox.length < 16 → (t.sled sl).footpath = d.footpath.erase g ∧ ((t.sled sl).depot n).inbox = (d.depot n).inbox ++ [g]) ∧
      (runs → 16 ≤ (d.depot n).inbox.length → t.sled sl = d) ∧
      (¬runs → (t.sled sl).footpath = d.footpath.erase g ∧ ((t.sled sl).depot n).inbox = (d.depot n).inbox ∧
        ((t.sled sl).r32 .depStray).toNat = min ((d.r32 .depStray).toNat + 1) (2 ^ 32 - 1)))

/-- The kernels of the Depots: how they start and end, their accesses and their messages. The end of a store to a read-only window is DEDUCED (log 32). -/
def Obligations.DepotKernelsAndMessages : Prop := Sys2Proof.Machine.DepotKernelsRunAndEnd ∧ Sys2Proof.Machine.DepotGathersAndMessages

/-! ### The console -/

/-- The console receiver samples each bit in its middle and stores the character with its parity and framing errors (R444, R445); a break gives one entry with its length (R446); a full FIFO
drops the entry and counts an overrun (R449). RTS follows the level of the FIFO (R450, R469), CSL_RXDATA pops it, RXFLUSH empties it. -/
def Sys2Proof.Machine.ConsoleReceives : Prop :=
  ∀ (who : Requester) (n : Node) (s : State) (v bits : Nat) (p stop : Bool) (samples : List Bool) (w : Word32), let c := s.space n; let k := (s.serial n).console
    let db := c.dbits; let par := c.parity ≠ 0; let fifo := fun (t : State) => (t.serial n).console.rx; let ev := fun (t : State) i => bit ((t.space n).r32 .cslEvent) i = true
    let line := fun i => if i = 0 then false else if i ≤ db then v.testBit (i - 1) else if i = db + 1 ∧ par then p else stop
    (s.rxOn n = false → exec (.consoleRxCharacter n samples) s = .next s ∧ exec (.rxBreak n bits) s = .next s) ∧
    (samples.getD 0 true = true → exec (.consoleRxCharacter n samples) s = .next s) ∧
    (s.rxOn n = true → v < 2 ^ db → samples.getD 0 true = false → (∀ i, i ≤ db + 1 + (if par then 1 else 0) → samples.getD (16 * i + 8) true = line i) → v ≠ 0 ∨ (par ∧ p = true) ∨ stop = true →
      exec (.consoleRxCharacter n samples) s = .next (s.rxPush n
        (BitVec.ofNat 32 (v + (if par ∧ p ≠ parityBit c.parity ((List.range db).countP v.testBit) then 512 else 0) + if stop then 0 else 1024)))) ∧
    (s.rxOn n = true → (c.charBits ≤ bits + 1 ∧ bits ≤ 65535 → exec (.rxBreak n bits) s = .next (s.rxPush n (BitVec.ofNat 32 (2048 + 65536 * bits)))) ∧
      (bits + 1 < c.charBits ∨ 65535 < bits → exec (.rxBreak n bits) s = .next s)) ∧
    (64 ≤ k.rx.length → fifo (s.rxPush n w) = k.rx ∧ ev (s.rxPush n w) 0 ∧ (((s.rxPush n w).space n).r32 .cslOverruns).toNat = min ((c.r32 .cslOverruns).toNat + 1) (2 ^ 32 - 1)) ∧
    (k.rx.length < 64 → fifo (s.rxPush n w) = k.rx ++ [w] ∧ (bit w 9 = true → ev (s.rxPush n w) 1) ∧ (bit w 10 = true → ev (s.rxPush n w) 2) ∧ (bit w 11 = true → ev (s.rxPush n w) 3)) ∧
    (let r := ((s.consoleRts n).serial n).console.rtsOff; let t := c.r32 .cslRts; let flow := bit (c.r32 .cslCtl) 1 = true ∧ bit (c.r32 .cslCtl) 2 = true
      (bit (c.r32 .cslCtl) 1 = false → r = true) ∧ (bit (c.r32 .cslCtl) 1 = true → bit (c.r32 .cslCtl) 2 = false → r = false) ∧ (flow → fld t 6 0 ≤ k.rx.length → r = true) ∧
      (flow → k.rx.length < fld t 6 0 → r = if k.rx.length ≤ fld t 14 8 then false else k.rtsOff)) ∧
    (k.rx = [] → exec (.cslRxdataRead who n) s = .next { s with reply := .val 0 }) ∧
    (∀ e r, k.rx = e :: r → ∃ t, exec (.cslRxdataRead who n) s = .next t ∧ t.reply = .val ((setBit e 12 true).zeroExtend 64) ∧ fifo t = r) ∧
    (∃ t, exec (.rxflush who n) s = .next t ∧ fifo t = [])

/-- CSL_TXDATA queues a character, or refuses it with 64 waiting (R451); the transmitter starts the next one when it is idle and CTS lets it, and its start, data, parity and stop bits go out (R442, R449, R452);
SEND_BRK holds the line low for BRKLEN bit times, 13 at least, from the end of the character under way on (R452). CSL_FMT, CSL_DIV and CSL_RTS take no value out of range (R462, R469). A line low for too long is dead, and
live again, and a console whose line is dead reports nothing on it (R447, R448, R466); a start edge wakes a sleeping receiver (R453). -/
def Sys2Proof.Machine.ConsoleSends : Prop :=
  ∀ (who : Requester) (n : Node) (s : State) (v : Word32) (cts : Bool) (l : SerialLine), let c := s.space n; let k := (s.serial n).console; let div := fld (c.r32 .cslDiv) 19 0
    let con := fun (t : State) => (t.serial n).console
    let lasts := bitTimes div (max 13 (fld (c.r32 .cslBrklen) 15 0) + 1)
    let evr := match l with | .console => Reg.cslEvent | .courier => Reg.curEvent
    let ev := fun (t : State) i => bit ((t.space n).r32 evr) i = true
    let lost := match l with | .console => Reg.cslWakeLost | .courier => Reg.curWakeLost
    let on := match l with | .console => bit (c.r32 .cslCtl) 1 | .courier => bit (c.r32 .curCtl) 0
    let sleeps := match l with | .console => bit (c.r32 .cslCtl) 4 | .courier => bit (c.r32 .curCtl) 1
    (64 ≤ k.tx.length → ∃ t, exec (.cslTxdataWrite who n v) s = .next t ∧ (con t).tx = k.tx ∧ bit ((t.space n).r32 .cslEvent) 7 = true ∧
      ((t.space n).r32 .cslTxref).toNat = min ((c.r32 .cslTxref).toNat + 1) (2 ^ 32 - 1)) ∧
    (k.tx.length < 64 → ∃ t, exec (.cslTxdataWrite who n v) s = .next t ∧ (con t).tx = k.tx ++ [v.truncate 9]) ∧
    (∃ t, exec (.txflush who n) s = .next t ∧ (con t).tx = []) ∧
    (∃ t, exec (.txCharacterStart n cts) s = .next t ∧ (con t).cts = cts ∧
      (k.tx = [] ∨ s.nodeOn n = false ∨ bit (c.r32 .cslCtl) 0 = false ∨ (bit (c.r32 .cslCtl) 3 = true ∧ cts = false) → (con t).tx = k.tx ∧ (con t).sent = k.sent) ∧
      (∀ e r, k.tx = e :: r → s.nodeOn n = true → bit (c.r32 .cslCtl) 0 = true → bit (c.r32 .cslCtl) 3 = false ∨ cts = true →
        (con t).tx = r ∧ (con t).sent = c.charLine e ∧ (con t).busyTill = t.now + bitTimes div c.charHalves / 2 ∧
        (k.brkAt = none → t.now = max s.now (max k.busyTill k.brkTill)) ∧ (∀ b, k.brkAt = some b → b ≤ max s.now k.busyTill → t.now = max (max s.now k.busyTill) (b + lasts)))) ∧
    ((k.brkAt = none ∧ s.now < k.brkTill) ∨ (∃ b, k.brkAt = some b ∧ s.now < b) → exec (.sendBrk who n) s = .next s) ∧
    (k.brkAt = none → k.brkTill ≤ s.now → ∃ t, exec (.sendBrk who n) s = .next t ∧ (k.busyTill ≤ s.now → (con t).brkAt = none ∧ (con t).brkTill = s.now + lasts) ∧
      (s.now < k.busyTill → (con t).brkAt = some k.busyTill ∧ (con t).brkTill = k.brkTill)) ∧
    (∀ w r st ok, (w, r, st, ok) ∈ [((.cslFmtWrite who n v : Instr), Reg.cslFmt, v &&& 0x37F, decide (fld v 9 8 ≠ 3 ∧ fld v 6 4 ≤ 4 ∧ 5 ≤ fld v 3 0 ∧ fld v 3 0 ≤ 9)),
        (.cslDivWrite who n v, .cslDiv, v &&& 0xFFFFF, decide (256 ≤ fld v 19 0)), (.cslRtsWrite who n v, .cslRts, v &&& 0x7F7F, decide (fld v 14 8 < fld v 6 0 ∧ fld v 6 0 ≤ 64))] →
      ∃ t, exec w s = .next t ∧ (con t).cfgBad = !ok ∧ (t.space n).r32 r = if ok then st else c.r32 r) ∧
    (s.nodeOn n = false ∨ on = false ∨ s.lineDead n l = true → exec (.lineDeadOn n l) s = .next s) ∧
    (s.nodeOn n = true → on = true → s.lineDead n l = false → ∃ t, exec (.lineDeadOn n l) s = .next t ∧ t.lineDead n l = true ∧ ev t 4 ∧ (l = .console → t.reports = s.reports) ∧
      (l = .courier → k.dead = false → (n, .lineDead l) ∈ t.reports)) ∧
    (s.nodeOn n = false ∨ s.lineDead n l = false → exec (.lineDeadOff n l) s = .next s) ∧
    (s.nodeOn n = true → s.lineDead n l = true → ∃ t, exec (.lineDeadOff n l) s = .next t ∧ t.lineDead n l = false ∧ ev t 5 ∧ (l = .console ∨ k.dead = false → (n, .lineLive l) ∈ t.reports)) ∧
    (s.nodeOn n = false ∨ s.lineDead n l = true ∨ sleeps = false → exec (.wake n l) s = .next s) ∧
    (s.nodeOn n = true → s.lineDead n l = false → sleeps = true → ∃ t, exec (.wake n l) s = .next t ∧ ((t.space n).r32 lost).toNat = min ((c.r32 lost).toNat + 1) (2 ^ 32 - 1) ∧
      bit ((t.space n).r32 evr) (match l with | .console => 6 | .courier => 3) = true)

/-- The console UART, receiving and sending. What RX_LINE shows and what WAKE names are DEDUCED (log 54, log 55). -/
def Obligations.ConsoleCharacters : Prop := Sys2Proof.Machine.ConsoleReceives ∧ Sys2Proof.Machine.ConsoleSends

/-! ### The Courier -/

/-- The Courier block sends one frame at a time after the idle wait and its backoff, an owed answer first (R454 to R456, R458); a collision backs off, the 16th drops the frame (R456); a line that cannot be driven
stops it (R455). A unicast EVENT waits for its ACK from its end on, is sent again after 40 bit times, and at most 8 times (R459). A sled that holds the line down is found by search and cut off (R461). -/
def Sys2Proof.Machine.CourierSends : Prop :=
  ∀ (who : Requester) (n : Node) (s : State) (rb : Readback) (b : RfId) (holds : BitVec 16) (low : Bool) (v : Word32) (f r : CurTx) (rest rs : List CurTx),
    let k0 := (s.serial n).courier; let u := s.curIdle n; let w := s.curNow n; let k := (u.serial n).courier; let bits := s.curBits n
    let cur := fun (t : State) => (t.serial n).courier; let ev := fun (t : State) i => bit ((t.space n).r32 .curEvent) i = true
    let asks := f.bytes.getD 1 0 = 3 ∧ f.bytes.getD 0 0 ≠ 0xFF
    let up := s.curOn n = true ∧ k.dead = false ∧ k.driveFail = false
    let buf := (List.range 16).flatMap fun i => toBytes ((s.space n).r32 .curTxbuf i) 4
    let idle := up ∧ k.resp = [] ∧ k.tx = f :: rest ∧ f.waitsFrom = none
    let start := max u.now (k.idleFrom + bits (12 + 10 * f.backoff))
    let owes := up ∧ k.resp = r :: rs
    let reply := max u.now (k.idleFrom + bits (if r.collisions = 0 then 4 else 12 + 10 * r.backoff))
    (u.now = max s.now k0.busyTill ∧ (k0.driving = none → u = { s with now := max s.now k0.busyTill }) ∧ (k0.driving = some true → k.driving = none ∧ k.resp = k0.resp.tail ∧ k.tx = k0.tx) ∧
      (k0.driving = some false → k0.tx = f :: rest → k.driving = none ∧ (asks → k.tx = { f with tries := f.tries + 1, waitsFrom := some k0.busyTill } :: rest) ∧ (¬asks → k.tx = rest ∧ ev u 0)) ∧
      (k0.busyTill ≤ s.now → w = u) ∧ (s.now < k0.busyTill → w = s)) ∧
    ((cur w).tx ≠ [] → exec (.send who n) s = .next w) ∧
    ((cur w).tx = [] → ∃ t, exec (.send who n) s = .next t ∧ (cur t).tx = [{ bytes := buf.take (4 + min (buf.getD 3 0).toNat 60) }]) ∧
    (¬up ∨ (k.resp = [] ∧ (k.tx = [] ∨ (k.tx = f :: rest ∧ f.waitsFrom ≠ none))) → exec (.courierFrameStart n rb) s = .next u) ∧
    (owes → (∃ t, exec (.courierFrameStart n .isOk) s = .next t ∧ (cur t).sent = lineBytes (courierId n) r.bytes ∧ (cur t).driving = some true ∧ (cur t).resp = k.resp ∧ (cur t).tx = k.tx ∧ t.now = reply ∧
        (cur t).busyTill = reply + bits (10 * (lineBytes (courierId n) r.bytes).length)) ∧
      (∃ t, exec (.courierFrameStart n .collision) s = .next t ∧ t.now = reply ∧ (cur t).tx = k.tx ∧ (15 ≤ r.collisions → (cur t).resp = rs ∧ ev t 1) ∧
        (r.collisions < 15 → ∃ g, (cur t).resp = g :: rs ∧ g.bytes = r.bytes ∧ g.collisions = r.collisions + 1 ∧ g.backoff < 2 ^ min (r.collisions + 1) 6))) ∧
    (idle → ∃ t, exec (.courierFrameStart n .isOk) s = .next t ∧ (cur t).sent = lineBytes (courierId n) f.bytes ∧ (cur t).driving = some false ∧ (cur t).tx = k.tx ∧ t.now = start ∧
      (cur t).busyTill = start + bits (10 * (lineBytes (courierId n) f.bytes).length)) ∧
    (idle → ∃ t, exec (.courierFrameStart n .collision) s = .next t ∧ t.now = start ∧
      (15 ≤ f.collisions → (cur t).tx = rest ∧ ev t 1) ∧
      (f.collisions < 15 → ∃ g, (cur t).tx = g :: rest ∧ g.bytes = f.bytes ∧ g.collisions = f.collisions + 1 ∧ g.backoff < 2 ^ min (f.collisions + 1) 6 ∧ g.tries = f.tries)) ∧
    (idle → ∃ t, exec (.courierFrameStart n .driveFail) s = .next t ∧ (cur t).tx = rest ∧ (cur t).resp = [] ∧ (cur t).driveFail = true ∧ ev t 6 ∧
      ((u.serial n).console.dead = false → (n, .courierDrive) ∈ t.reports)) ∧
    (∃ t, exec (.driveClr who n) s = .next t ∧ (cur t).driveFail = false ∧ (cur t).tx = k0.tx) ∧
    (k.tx = [] ∨ (k.tx = f :: rest ∧ f.waitsFrom = none) → exec (.courierEventResend n) s = .next u) ∧
    (∀ e, k.tx = f :: rest → f.waitsFrom = some e → ∃ t, exec (.courierEventResend n) s = .next t ∧ t.now = max u.now (e + bits 40) ∧
      (8 ≤ f.tries → (cur t).tx = rest) ∧ (f.tries < 8 → (cur t).tx = { f with waitsFrom := none } :: rest)) ∧
    (b ≠ s.activeRf ∨ (s.serial (.rf b)).courier.dead = false → exec (.courierIsolationSearch b holds low) s = .next s) ∧
    (b = s.activeRf → (s.serial (.rf b)).courier.dead = true → ∃ t, exec (.courierIsolationSearch b holds low) s = .next t ∧
      (low = true → t.rf b = s.rf b ∧ t.rack.events = s.rack.events ++ [(.rf b, .courierRackFault)]) ∧
      (low = false → ∀ i, i < 16 → bit ((t.rf b).r32 .curRkIso) i = (bit ((s.rf b).r32 .curRkIso) i || bit holds i))) ∧
    (∃ t, exec (.curRkIsoWrite who b v) s = .next t ∧ (t.rf b).r32 .curRkIso = v &&& 0xFFFF ∧ t.sleds = s.sleds)

/-- A whole frame with its CRC, each character read from its samples (R444), is delivered to its node, what lies before its SOF passed over; a gap discards and counts it (R457); a sled behind an open switch hears nothing
(R461). The hardware answers a unicast PING, stores an EVENT and acknowledges it, acknowledges a repeat without storing it, and does neither with its buffers full (R458); an ACK ends the EVENT it answers (R459); a PONG shows
the active Rack Factor that a sled is alive (R398). -/
def Sys2Proof.Machine.CourierReceives : Prop :=
  ∀ (who : Requester) (n : Node) (s : State) (f : CourierFrame) (i : Fin 4), let u := s.curIdle n; let k := (u.serial n).courier; let cur := fun (t : State) => (t.serial n).courier
    let ev := fun (t : State) i => bit ((t.space n).r32 .curEvent) i = true; let small := f.payload.length ≤ 32; let takes := s.curTakes n f = true; let all := f.dst = 0xFF
    let free := (List.range 4).find? fun i => !bit k.full i
    let answer := fun (type : Byte) (p : List Byte) => ({ bytes := [f.src, type, f.seq, BitVec.ofNat 8 p.length] ++ p } : CurTx)
    let kept := fun (t : State) j => (cur t).full = setBit k.full j true ∧ ∀ w, w < 16 → (t.space n).r32 .curRxbuf j w = ofBytes 32 (((f.src :: frameTail f).drop (4 * w)).take 4)
    let line := lineBytes f.src.toNat (frameTail f)
    let reads := fun (x : List Bool) (b : Byte) => x.getD 0 true = false ∧ x.getD 8 true = false ∧ (∀ k, k < 8 → x.getD (16 * (k + 1) + 8) true = bit b k) ∧ x.getD 152 true = true
    let heard := if s.switchOpen n || !s.onLine f.src then u else u.onCourier n fun c => { c with idleFrom := u.now }
    (s.curOn n = false ∨ (cur s).dead = true ∨ s.switchOpen n = true → ∀ cs, exec (.courierFrameRx n cs) s = .next s) ∧
    (∀ cs, s.curOn n = true → (cur s).dead = false → s.switchOpen n = false → k.partRx = [] → small → 1 ≤ f.type.toNat → f.type.toNat ≤ 4 →
      cs.length = line.length → (∀ j, j < line.length → reads (cs.getD j []) (line.getD j 0)) →
      exec (.courierFrameRx n cs) s = .next ((u.onCourier n fun k => { k with partRx := [], idleFrom := u.now }).curDeliver n f)) ∧
    ((cur s).partRx = [] → exec (.courierCharGap n) s = .next s) ∧
    ((cur s).partRx ≠ [] → ∃ t, exec (.courierCharGap n) s = .next t ∧ (cur t).partRx = [] ∧ ((t.space n).r32 .curBadFrames).toNat = min (((s.space n).r32 .curBadFrames).toNat + 1) (2 ^ 32 - 1)) ∧
    (∀ c y, (c, y) ∈ [((.ping n f : Instr), 1), (.pong n f, 2), (.courierEvent n f, 3), (.courierAck n f, 4)] →
      (f.type.toNat ≠ y ∨ ¬small → exec c s = .next s) ∧ (f.type.toNat = y → small → ¬takes → exec c s = .next heard)) ∧
    (takes → small → f.type = 1 → (all → exec (.ping n f) s = .next heard) ∧ (¬all → ∃ t, exec (.ping n f) s = .next t ∧ (cur t).resp = k.resp ++ [answer 2 (u.pongBytes n)] ∧ (u.pongBytes n).length = 8)) ∧
    (takes → small → f.type = 2 → ∃ t, exec (.pong n f) s = .next t ∧ (∀ j, free = some j → kept t j ∧ ev t 2) ∧ (free = none → (cur t).full = k.full) ∧
      (n = .rf s.activeRf → f.src.toNat < 16 → bit t.rack.late f.src.toNat = false ∧ mget t.rack.pings f.src.toNat = none)) ∧
    (takes → small → f.type = 3 → let again := mget k.lastSeq f.src.toNat = some f.seq
      (¬all → again → ∃ t, exec (.courierEvent n f) s = .next t ∧ (cur t).resp = k.resp ++ [answer 4 []] ∧ (cur t).full = k.full) ∧
      (∀ j, ¬all → ¬again → free = some j → ∃ t, exec (.courierEvent n f) s = .next t ∧ kept t j ∧ ev t 2 ∧ (cur t).resp = k.resp ++ [answer 4 []] ∧ mget (cur t).lastSeq f.src.toNat = some f.seq) ∧
      (∀ j, all → free = some j → ∃ t, exec (.courierEvent n f) s = .next t ∧ kept t j ∧ (cur t).resp = k.resp) ∧
      (all ∨ ¬again → free = none → exec (.courierEvent n f) s = .next heard)) ∧
    (∀ g rest, takes → small → f.type = 4 → k.tx = g :: rest → let ends := g.waitsFrom ≠ none ∧ g.bytes.getD 0 0 = f.src ∧ g.bytes.getD 2 0 = f.seq
      (ends → ∃ t, exec (.courierAck n f) s = .next t ∧ (cur t).tx = rest ∧ ev t 0) ∧ (¬ends → exec (.courierAck n f) s = .next heard)) ∧
    (∃ t, exec (.curRxbufRead who n i) s = .next t ∧ t.reply = .val (((s.space n).r32 .curRxbuf i 15).zeroExtend 64) ∧ ∀ j, j < 4 → bit (cur t).full j = (bit (cur s).full j && decide (j ≠ i.val)))

/-- The Courier line, sending and receiving. How many shifts a draw of the backoff takes and what it reads of the register are free (log 104). -/
def Obligations.CourierFrames : Prop := Sys2Proof.Machine.CourierSends ∧ Sys2Proof.Machine.CourierReceives

/-! ### Ports and the TAP -/

/-- A data port drops and counts what it may not take, and delivers a frame without its FCS to the buffer at HEAD (R501 to R503); it sends the frame of the descriptor at HEAD, and skips one whose frame cannot be read or sent.
RESUME restarts stalled rings. -/
def Sys2Proof.Machine.DataPortsMoveFrames : Prop :=
  ∀ (who : Requester) (p : Fin 8) (frame : List Byte) (fcs : Bool) (s : State) (d1 d2 d3 : Sled) (head : Word32) (va buf size : Nat), let k := s.port p; let sl := k.sled; let x : Ctx := s.ctx sl
    let takes := bit k.ctl 0 = true ∧ fcs = true ∧ 64 ≤ frame.length ∧ frame.length ≤ 9216 ∧ k.rx.stalled = false ∧ s.inService sl = true
    let body := frame.take (frame.length - 4)
    let drops := fun (d : Sled) => ∃ t, exec (.dataPortRxFrame p frame fcs) s = .next t ∧ t.sled sl = d ∧ (t.port p).dropped = true ∧ ∀ b, (t.rf b).r64 .dpRxDrop p = (s.rf b).r64 .dpRxDrop p + 1
    let sends := bit k.ctl 0 = true ∧ k.tx.stalled = false ∧ s.inService sl = true
    let moved := fun (r : DpRing) => { r with head := head + 1, opened := true }
    (¬takes → drops (s.sled sl)) ∧
    (takes → dpNext x (s.sled sl) k false = (d1, .empty) → drops d1) ∧
    (takes → dpNext x (s.sled sl) k false = (d1, .slot head va buf size) → (size < body.length → drops d1) ∧
      (body.length ≤ size → d1.uWrite x k.tenant false buf body = (d2, none) → dpFinish x d2 k false head va (body.length + 65536 + if k.dropped then 131072 else 0) = (d3, none) →
        ∃ t, exec (.dataPortRxFrame p frame fcs) s = .next t ∧ t.sled sl = d3.tally k.tenant.val 10 (8 * body.length) ∧ (t.port p).rx = moved k.rx ∧ (t.port p).dropped = false)) ∧
    (¬sends → exec (.dataPortTxFrame p) s = .next s) ∧
    (sends → dpNext x (s.sled sl) k true = (d1, .slot head va buf size) →
      (size < 60 ∨ 9212 < size → dpFinish x d1 k true head va 65536 = (d2, none) → ∃ t, exec (.dataPortTxFrame p) s = .next t ∧ t.sled sl = d2 ∧ (t.port p).tx = moved k.tx ∧ (t.port p).sent = k.sent) ∧
      (∀ bs bad, 60 ≤ size → size ≤ 9212 → d1.uRead x k.tenant false buf size = (d2, .ok bs bad) → let c := d2.openBytes x bs bad
        dpFinish x (c.1.tally k.tenant.val 10 (8 * size)) k true head va (size + 65536) = (d3, none) →
        ∃ t, exec (.dataPortTxFrame p) s = .next t ∧ t.sled sl = d3 ∧ (t.port p).tx = moved k.tx ∧ (t.port p).sent = c.2 ∧ ∀ b, (t.rf b).r64 .dpTx p = (s.rf b).r64 .dpTx p + 1)) ∧
    (∃ t, exec (.dataPortResume who p) s = .next t ∧ t.sleds = s.sleds ∧ (t.port p).rx = { k.rx with stalled := false } ∧ (t.port p).tx = { k.tx with stalled := false } ∧ ∀ o, o ≠ p → t.port o = s.port o)

/-- RFE_VID_CTL takes no change but of EN while enabled, and enables only a legal raster, payload type and binding (R513); a frame starts at a presentation boundary of the sled a port is bound to (R504, R515), and its packets leave
in turn, none while the link is down (R506, R514). An ARP request for the port's address is answered (R499). -/
def Sys2Proof.Machine.VideoPortsSendFrames : Prop :=
  ∀ (who : Requester) (p : Fin 4) (v : Word32) (up : Bool) (sl : SledId) (s : State), let a := s.activeRf; let r := s.rf a; let q := s.video p
    let w := v &&& BitVec.ofNat 32 (regInfo .rfeVidCtl).rw; let old := r.r32 .rfeVidCtl p; let ras := r.r32 .rfeVidRaster p
    let locked := bit old 0 = true ∧ setBit old 0 false ≠ setBit w 0 false
    let width := fld ras 15 0; let height := fld ras 31 16
    let fits := width % 2 = 0 ∧ 2 ≤ width ∧ width ≤ 4096 ∧ 2 ≤ height ∧ height ≤ 2160 ∧ 96 ≤ fld (r.r32 .rfeVidRtp p) 6 0 ∧ bit w 1 = true
    let bad := fun (t : State) => bit ((t.rf a).r32 .rfeVidStatus p) 1
    let n := fld (s.sled sl).compositor.stride 15 0 * r.mean.1
    (∃ t, exec (.rfeVidCtlWrite who p v) s = .next t ∧
      (locked → (t.rf a).r32 .rfeVidCtl p = old ∧ bad t = true) ∧
      (¬locked → bit w 0 = true → bit old 0 = false → ¬fits → (t.rf a).r32 .rfeVidCtl p = setBit w 0 false ∧ bad t = true) ∧
      (¬locked → bit w 0 = false ∨ bit old 0 = true ∨ fits → (t.rf a).r32 .rfeVidCtl p = w ∧ bad t = false)) ∧
    (∃ t, exec (.rfeVidRasterWrite who p v) s = .next t ∧ bad t = bit old 0 ∧ (t.rf a).r32 .rfeVidRaster p = if bit old 0 then ras else v) ∧
    (∃ t, exec (.videoLinkChange p up) s = .next t ∧ t.video p = { q with down := !up }) ∧
    (∃ t, exec (.videoArpRequest p v) s = .next t ∧ (t.video p).arps = if r.r32 .rfeVidSrcIp p = v ∧ q.down = false then q.arps + 1 else q.arps) ∧
    (q.frame = none → exec (.videoPacketSend p) s = .next s) ∧
    (∀ f, q.frame = some f → let per := vidPerLine f.ctl (fld f.raster 15 0); let total := fld f.raster 31 16 * per
      ∃ t, exec (.videoPacketSend p) s = .next t ∧ (t.video p).seq = q.seq + 1 ∧ (q.down = true → (t.video p).packet = q.packet) ∧
        t.now = max s.now (f.ref + f.tframe * (4300 * total + 108000 * f.sent) / (112500 * total * f.den)) ∧
        (f.sent + 1 < total → (t.video p).frame = some { f with sent := f.sent + 1 }) ∧
        (total ≤ f.sent + 1 → (t.video p).frame = none ∧ (t.rf a).r64 .rfeVidFrames p = r.r64 .rfeVidFrames p + 1)) ∧
    ((s.sled sl).presentDue = false → exec (.presentationBoundary sl) s = .next s) ∧
    ((s.sled sl).presentDue = true → ∃ t, exec (.presentationBoundary sl) s = .next t ∧ t.sled sl = (s.sled sl).presentation (s.ctx sl) ∧
      (bit old 0 = true → bit old 1 = true → fld old 11 8 = sl.val →
        (1000000000 * r.mean.2 ≤ n * 60 → ∃ f, (t.video p).frame = some f ∧ f.sled = sl ∧ f.sent = 0 ∧ f.ref = (s.sled sl).bell.startedAt ∧ f.raster = ras ∧ f.ctl = old) ∧
        (n * 60 < 1000000000 * r.mean.2 → (t.video p).frame = none ∧ bit ((t.rf a).r32 .rfeVidStatus p) 2 = true)))

/-- The data ports and the video ports. A frame too short or too long is skipped (log 63), and header fields no rule gives are free (log 61), as is a failed read (log 64). -/
def Obligations.DataAndVideoPorts : Prop := Sys2Proof.Machine.DataPortsMoveFrames ∧ Sys2Proof.Machine.VideoPortsSendFrames

/-- The TAP instructions (R480, R511): BYPASS and IDCODE capture their registers, SAMPLE and EXTEST the 27 boundary cells, PRELOAD loads them; only EXTEST drives the pins. The private ones are BYPASS once debug is closed,
as the fuse programmer has by now left it, and do nothing without OPEN. -/
def Sys2Proof.Machine.TapInstructions : Prop :=
  ∀ (sl : SledId) (cells : List Bool) (op : TapOp) (c : CoreId) (s : State), let d := s.sled sl; let e := d.fuseNow (s.ctx sl); let tap := fun (t : State) => (t.sled sl).tap
    (∃ t, exec (.bypass sl) s = .next t ∧ t.sled sl = { d with tap := { d.tap with captured := [false], driving := false } }) ∧
    (∃ t, exec (.sample sl) s = .next t ∧ (tap t).captured.length = 27 ∧ (tap t).driving = false ∧ (tap t).cells = d.tap.cells) ∧
    (∃ t, exec (.extest sl) s = .next t ∧ (tap t).captured.length = 27 ∧ (tap t).driving = true ∧ (tap t).cells = d.tap.cells) ∧
    (∃ t, exec (.preload sl cells) s = .next t ∧ t.sled sl = { d with tap := { d.tap with cells := cells.take 27, driving := false } }) ∧
    (∃ t w, exec (.idcode sl) s = .next t ∧ (tap t).captured = (List.range 32).map (fun i => bit (w : Word32) i) ∧ fld w 31 28 = fld (d.r32 .stepping) 3 0 ∧ fld w 27 12 = 0x7E01 ∧ fld w 11 1 = 0x56D ∧ fld w 0 0 = 1) ∧
    (e.debugClosed = true → ∃ t, exec (.tapPrivate sl op) s = .next t ∧ t.sled sl = { e with tap := { e.tap with captured := [false], driving := false } }) ∧
    (e.debugClosed = false → bit (e.r32 .fusDebug) 0 = false → ∃ t, exec (.tapPrivate sl op) s = .next t ∧ t.sled sl = e) ∧
    (e.debugClosed = false → bit (e.r32 .fusDebug) 0 = true →
      (e.coreUp c = true → ∃ t, exec (.tapPrivate sl (.halt c)) s = .next t ∧ (t.sled sl).core c = { e.core c with halted := true }) ∧
      (∃ t, exec (.tapPrivate sl (.letGo c)) s = .next t ∧ (t.sled sl).core c = { e.core c with halted := false }))

/-! ### Start-up and fuses -/

/-- SLED_POWER_ON goes through the sequence of Table 15.1: a fuse row that cannot be sensed ends in NO_SERVICE (R490), a flash or images that cannot be used in RECOVERY (R474 to R476), else, once no Warn or Guard condition holds,
memory is cleared and the sled, in service, asks to JOIN (R471, R472, R483), every 10 ms. RECOVERY_IMAGE fills slot B and restarts the sled, if the NV Guard lets it (R476). -/
def Sys2Proof.Machine.SledStartsUp : Prop :=
  ∀ (sl : SledId) (y z : SelfTest) (image : List Byte) (s : State), let d := s.sled sl; let e := d.senseFuses sl; let service := fun (d : Sled) => fld (d.r32 .service) 2 0
    let busy := d.ended = true ∨ service d ≠ 0; let first := ¬busy ∧ d.boot.waits = none; let stage := fld (d.r32 .pwrStatus) 1 0 ≠ 0; let tells := d.serial.console.dead = false
    let usable := y.badRow = none ∧ y.sfdpOk = true ∧ (y.mode144 = true ∨ y.mode114 = true)
    let valid := e.image sl 0 ≠ none ∨ e.image sl 0x1C00000 ≠ none
    let fails := fun code (r : Report) => ∃ t, exec (.sledPowerOn sl y) s = .next t ∧ (t.sled sl).r32 .service = BitVec.ofNat 32 code ∧ (tells → t.reports = s.reports ++ [(.sled sl, r)])
    let starts := ∃ t, exec (.sledPowerOn sl y) s = .next t ∧ let k := t.sled sl
      k.mem = [] ∧ k.ecc = [] ∧ k.cache = [] ∧ k.boot.waits = none ∧ (service k = 3 → tells → t.reports = s.reports ++ [(.sled sl, .noService)]) ∧
      (service k ≠ 3 → s.isolatedPort sl = false → k.rackState = 1 ∧ k.boot.joinAt = s.now ∧ t.rackOf sl = 1)
    (busy → exec (.sledPowerOn sl y) s = .next s) ∧
    (∀ r, first → y.badRow = some r → fails 3 (.fuseRow r.val)) ∧
    (first → y.badRow = none → ¬usable → fails 4 (.recovery 1)) ∧
    (first → usable → ¬valid → fails 4 (.recovery 2)) ∧
    (first → usable → valid → stage → ∃ t, exec (.sledPowerOn sl y) s = .next t ∧ (t.sled sl).boot.waits = some y ∧ service (t.sled sl) = 0 ∧ (t.sled sl).mem = d.mem ∧ t.reports = s.reports) ∧
    (first → usable → valid → ¬stage → starts) ∧
    (¬busy → d.boot.waits = some z → (stage → exec (.sledPowerOn sl y) s = .next s) ∧ (¬stage → starts)) ∧
    (d.ended = true ∨ d.rackState ≠ 1 → exec (.joinResend sl) s = .next s) ∧
    (d.ended = false → d.rackState = 1 → ∃ t, exec (.joinResend sl) s = .next t ∧ t.now = max s.now (d.boot.joinAt + 10000000) ∧ t.sled sl = { d with boot := { d.boot with joinAt := t.now } } ∧
      (s.isolatedPort sl = false → t.mail = s.mail ++ [Mail.mk (.sled sl) (.rf s.activeRf) (.join ⟨d.boot.fwMajor, d.boot.fwMinor, d.boot.digest, d.manifest⟩)])) ∧
    (let may := d.ended = false ∧ service d = 4 ∧ s.isolatedPort sl = false;
      (¬may → exec (.recoveryImage sl image) s = .next s) ∧
      (may → d.nvGuard = true → ∃ t, exec (.recoveryImage sl image) s = .next t ∧ (t.sled sl).nv = d.nv ∧ (tells → (.sled sl, .flashRefused) ∈ t.reports)) ∧
      (may → d.nvGuard = false → ∃ t, exec (.recoveryImage sl image) s = .next t ∧ t.sled sl = { (default : Sled) with freeCtr := d.freeCtr, nv := (t.sled sl).nv } ∧ (t.sled sl).nv.blown = d.nv.blown ∧
        ∀ i, (t.sled sl).flashByte sl (0x1C00000 + i) = if i < min image.length 0x1C00000 then image.getD i 0xFF else d.flashByte sl (0x1C00000 + i)))

/-- RACK_FACTOR_BOOT boots a Rack Factor, which queries the other one with a PING, and 10 ms later makes one active when no PONG has shown an active one: A when both booted within the window, else itself; a Rack Factor that
finds the other active has its Bell count and its state (R473). FIRST_BELL waits for the JOIN of every occupied slot, or 2 s. -/
def Sys2Proof.Machine.RackStartsUp : Prop :=
  ∀ (b : RfId) (s : State), let r := s.rf b; let o := s.rf (otherRf b); let role := fun (r : RackFactor) => bit (r.r32 .twnRkRole) 1 = true; let a := s.activeRf; let act := s.rf a
    let together := o.up = true ∧ o.bootAt ≤ r.bootAt + 10000000 ∧ r.bootAt ≤ o.bootAt + 10000000
    (r.up = false → ∃ t, exec (.rackFactorBoot b) s = .next t ∧ (t.rf b).up = true ∧ (t.rf b).bootAt = s.now ∧ bit ((t.rf b).r32 .twnRkRole) 0 = decide (b = 1) ∧ t.sleds = s.sleds ∧
      (t.rf b).serial.courier.tx = r.serial.courier.tx ++ [{ bytes := [BitVec.ofNat 8 (30 + (otherRf b).val), 1, 0, 0] }]) ∧
    (r.up = true → role r → exec (.rackFactorBoot b) s = .next s) ∧
    (r.up = true → ¬role r → ∃ t, exec (.rackFactorBoot b) s = .next t ∧ t.now = max s.now (r.bootAt + 10000000) ∧
      (r.peer = true → ¬role (t.rf b) ∧ (t.rf b).r64 .belCount = o.r64 .belCount ∧ (t.rf b).copy = s.rack) ∧
      (r.peer = false → t.sleds = s.sleds ∧ (together → t.activeRf = 0 ∧ role (t.rf 0) ∧ (t.rf 0).activeAt = t.now) ∧ (¬together → role (t.rf b) ∧ (t.rf b).activeAt = t.now))) ∧
    (act.up = false ∨ ¬role act ∨ s.rack.started = true → exec .firstBell s = .next s) ∧
    (act.up = true → role act → s.rack.started = false → ∃ t t1 : State, exec .firstBell s = .next t ∧
      t1.now = (if (List.range 16).all (fun n => !Config.occupied n || (mget s.rack.joins n).isSome) then s.now else max s.now (act.activeAt + 2000000000)) ∧ t1.rack = { s.rack with started := true } ∧ t1.sleds = s.sleds ∧
      t1.rfs = s.rfs ∧ t.rf a = ((t1.boundaryOf a).rackBoundary a).rf a ∧ t.sleds = ((t1.boundaryOf a).rackBoundary a).sleds)

/-- The start of a sled and of the rack. That the self-test's findings are an operand (log 17), which slots are occupied (log 60) and that the sequence waits in one place only (log 103) are the model's. -/
def Obligations.StartUp : Prop := Sys2Proof.Machine.SledStartsUp ∧ Sys2Proof.Machine.RackStartsUp

/-- FUS_PROG: a request while one runs changes nothing, one for a row or bits that the field may not program ends with code 4, one under the NV Guard with code 3 (R426, R479); else its bits that are not blown yet are pulsed in turn, those of
DEBUG_CLOSE together (R480, Table 15.4). After Guard the request goes on by itself (R427). -/
def Sys2Proof.Machine.FusesAreProgrammed : Prop :=
  ∀ (who : Requester) (sl : SledId) (s : State), let d := s.sled sl; let e := d.fuseNow (s.ctx sl); let row := fld (d.r32 .fusProg) 6 0; let m := d.r32 .fusProgMask; let field := fieldMask row
    let all := if row = 48 ∧ m &&& 0x70 ≠ 0 then m ||| 0x70 else m
    let bits := (List.range 32).filter fun k => bit all k && !bit (e.r32 .fusRow row) k
    let good := e.fuse = none ∧ field ≠ 0 ∧ m &&& ~~~field = 0 ∧ e.nvGuard = false
    let code := fun (d : Sled) => fld (d.r32 .fusProgStatus) 3 0
    (e.fuse ≠ none → ∃ t, exec (.fuseProgram who sl) s = .next t ∧ t.sled sl = e) ∧
    (e.fuse = none → field = 0 ∨ m &&& ~~~field ≠ 0 → ∃ t, exec (.fuseProgram who sl) s = .next t ∧ t.sled sl = e.fuseStatus 4) ∧
    (e.fuse = none → field ≠ 0 → m &&& ~~~field = 0 → e.nvGuard = true → ∃ t, exec (.fuseProgram who sl) s = .next t ∧ code (t.sled sl) = 3 ∧ (t.sled sl).fuse = none ∧
      ((t.sled sl).r32 .pwrNvRefused).toNat = min ((e.r32 .pwrNvRefused).toNat + 1) (2 ^ 32 - 1) ∧ (t.sled sl).nv = e.nv) ∧
    (good → bits = [] → ∃ t, exec (.fuseProgram who sl) s = .next t ∧ t.sled sl = e.w32 .fusProgStatus 2) ∧
    (good → bits ≠ [] → ∃ t, exec (.fuseProgram who sl) s = .next t ∧ t.sled sl = { e.w32 .fusProgStatus 1 with fuse := some { row := row, bits := bits, began := s.now } }) ∧
    (∀ q, d.fuse = some q → q.cut = true → d.nvGuard = false → ∃ t, exec (.fuseResume sl) s = .next t ∧ code (t.sled sl) = 1 ∧ (t.sled sl).fuse = some { q with cut := false, began := s.now }) ∧
    (d.fuse = none ∨ (∃ q, d.fuse = some q ∧ q.cut = false) ∨ d.nvGuard = true → ∃ t, exec (.fuseResume sl) s = .next t ∧ t.sled sl = d)

/-- The TAP instructions and the fuse programmer. The TAP before its first instruction is PRESUMED (log 8); whether a pulse blows its bit and the pins' levels are free (log 56, log 62); the order of the refusals is DEDUCED (log 100). -/
def Obligations.TapAndFuses : Prop := Sys2Proof.Machine.TapInstructions ∧ Sys2Proof.Machine.FusesAreProgrammed

/-! ### The whole machine -/

/-- The values that the spec gives registers for reset, other than zero (the reset columns of its register tables). -/
def Sys2Proof.Machine.resetValues : List (Reg × Word32) :=
  [(.vendor, 0x4D6D), (.part, 0x7E01), (.belPeriod, 50000000), (.belPeriodNext, 50000000), (.belSettle, 1000000), (.belTickLen, 50000000), (.belSrcCtl, 3), (.belStatus, 0xC0), (.belEventEn, 0x3FF),
   (.belPtp, 0x7F), (.ledTollCtl, 2), (.schCore, 0xFF), (.schTlimit, 256), (.mmuTlbiSync, 1), (.regScrub, 24), (.teCaravan, 0x100200), (.teHqThresh, 1), (.prbRqThresh, 1), (.rfeCmpStride, 1),
   (.twnLinkCtl, 0x1901), (.twnEventEn, 0x1FF), (.pwrEventEn, 0x1FF), (.pwrCtl, 2000), (.cslCtl, 0x13), (.cslFmt, 8), (.cslDiv, 6667), (.cslBrklen, 20), (.cslRts, 0x2038), (.cslEventEn, 0x1FF),
   (.curCtl, 3), (.curDiv, 768), (.curEventEn, 0x1FF)]

/-- Right after reset no command waits, the registers hold the values their tables give, the others of these zero, no thread, entry, job, kernel, message or frame is anywhere, and memory lists nothing. -/
def Sys2Proof.Machine.ResetState : Prop :=
  State.reset.pending = [] ∧ State.reset.mail = [] ∧ State.reset.fabric = [] ∧ ∀ sl : SledId, let d := State.reset.sled sl
    (∀ r v, (r, v) ∈ resetValues → ∀ i j, d.r32 r i j = v) ∧
    (∀ r ∈ [Reg.service, .tntCtl, .tntAllot, .tntQCtl, .gteBudget, .prtCtl, .teCtl, .teHqCtl, .rfeCmpCtl, .twnState, .twnEvent, .pwrEvent, .belEvent, .cslEvent, .curEvent], ∀ i j, d.r32 r i j = 0) ∧
    d.mem = [] ∧ d.items = [] ∧ d.launches = [] ∧ d.footpath = [] ∧ d.undo = [] ∧ d.serial.console.rx = [] ∧ d.serial.courier.tx = [] ∧
    d.posts = [] ∧ (∀ e, d.eng e = {}) ∧ (∀ n, d.depot n = {}) ∧ (∀ r, (d.rfe r).cur = none) ∧ ∀ c, d.core c = {}

/-- The tables that hold the sleds and the Rack Factors are canonical, so that equal machines are equal data, and name no sled or Rack Factor beyond the rack; so is every sled's memory. -/
def Sys2Proof.Machine.Inv (s : State) : Prop :=
  Map.wf s.sleds ∧ (∀ e ∈ s.sleds, e.1 < 16) ∧ Map.wf s.rfs ∧ (∀ e ∈ s.rfs, e.1 < 2) ∧ ∀ sl, Memory.wf (s.sled sl).mem

/-- The canonical form holds after reset. -/
def Sys2Proof.Machine.ResetIsCanonical : Prop := Inv State.reset

/-- The machine right after reset: the values the spec gives, nothing in flight, and the canonical form. Zero in registers for which the spec gives no value is the model's choice (log 5, log 9). -/
def Obligations.ResetStateAndForm : Prop := Sys2Proof.Machine.ResetState ∧ Sys2Proof.Machine.ResetIsCanonical

/-- Every step keeps the sleds and the Rack Factors in their canonical tables. The canonical form is the model's own representation. -/
def Obligations.TablesStayCanonical : Prop :=
  ∀ s t : State, Map.wf s.sleds → (∀ e ∈ s.sleds, e.1 < 16) → Map.wf s.rfs → (∀ e ∈ s.rfs, e.1 < 2) → step s = .next t →
    Map.wf t.sleds ∧ (∀ e ∈ t.sleds, e.1 < 16) ∧ Map.wf t.rfs ∧ ∀ e ∈ t.rfs, e.1 < 2

/-- Every step keeps the canonical form of the machine, every sled's memory included. The canonical form, and what an unlisted byte reads as, are the model's own representation. -/
def Obligations.CanonicalFormIsKept : Prop := ∀ s t : State, Inv s → step s = .next t → Inv t

/-- Commands that act inside one sled. -/
def Sys2Proof.Machine.InOneSled (who : Requester) (sl : SledId) (n : DepotId) (e : EngineId) (h : RingId) (k : Fin 65536) (r : DieId) (u : TenantId) (q : QueueId) (v : Word32) (cells : List Bool) (c : Instr) : Prop :=
  c ∈ [.leaseExpiry sl, .depotKernelStart sl n, .depEnd sl n, .depLd sl n, .depSt sl n, .ldw sl n, .stn sl n, .gather sl n, .scatter sl n, .fsend sl n, .frecv sl n, .footpathMessage sl n, .depAdd sl n, .depSub sl n,
   .depMul sl n, .depFma sl n, .depMin sl n, .depMax sl n, .cmpeq sl n, .cmplt sl n, .cmple sl n, .sel sl n, .redadd sl n, .redmin sl n, .redmax sl n, .splat sl n, .mova sl n, .vins sl n, .boxu sl n, .tribox sl n] ++
  [.nhdr sl n, .qchild sl n, .adam sl n, .crc sl n, .depMovi sl n, .addi sl n, .andi sl n, .shli sl n, .shri sl n, .adda sl n, .depBr sl n, .bz sl n, .bnz sl n, .depLoop sl n, .depIllegal sl n, .caravanDispatch sl e,
   .hitRecordWrite sl e k, .callbackPost sl e k, .probeNodeVisit sl e k, .probeResultWrite sl e k, .engineDrainDone sl e, .teHqCtlWrite who sl e h v, .teHqResume who sl e h, .prbRqCtlWrite who sl e h v, .prbRqResume who sl e h] ++
  [.fuseResume sl, .queueTailStore sl u q, .entryNop sl u q, .threadEntry sl u q, .teBatch sl u q, .probeBatch sl u q, .depotEntry sl u q, .marker sl u q, .reservedEntryKind sl u q, .entryCompletion sl u q v,
   .tenantResetDone sl u, .tollReached sl u, .bypass sl, .sample sl, .preload sl cells, .extest sl, .idcode sl, .prtCtlWrite who sl r v, .clrmin who sl] ++
  [.clear sl r, .vis sl r, .frag sl r, .blend sl r, .resolve sl r, .present sl r, .rfeGrowGo who sl u r, .rfeGrowFlush who sl u r, .rfeCmpPreempt sl r, .rfeCmpStrideWrite who sl v]

/-- Writes to the TNT_ registers of a tenant that have an arm of their own. -/
def Sys2Proof.Machine.TenantWrites (who : Requester) (sl : SledId) (u : TenantId) (q : QueueId) (v : Word32) (c : Instr) : Prop :=
  c ∈ [.tntCtlWrite who sl u v, .tntAllotWrite who sl u v, .qResume who sl u q, .tntQCtlWrite who sl u q v]

/-- Commands that act on the rack alone. -/
def Sys2Proof.Machine.OnTheRack (who : Requester) (sl : SledId) (b : RfId) (n : Fin 4) (p : Fin 8) (v : Word32) (up : Bool) (c : Instr) : Prop :=
  c ∈ [.drain who sl, .isolate who sl, .pushCfg who sl, .rfStateCopy b, .videoLinkChange n up, .videoArpRequest n v, .rfeVidCtlWrite who n v, .rfeVidRasterWrite who n v, .dataPortResume who p, .curRkIsoWrite who b v]

/-- Frames: a command inside a sled changes that sled alone, no time passes and nothing leaves it; so does a write to a TNT_ register, but for a Rack Factor's for a running Mirror tenant, which goes to both twins (R391); a
command on the rack changes no sled, RELEASE none but its own, and RACK_FACTOR_BOOT none unless the other Rack Factor is active. That these commands take no time is the model's choice (log 1). -/
def Obligations.CommandsKeepTheirPlace : Prop :=
  ∀ (who : Requester) (sl : SledId) (n : DepotId) (e : EngineId) (h : RingId) (k : Fin 65536) (r : DieId) (u : TenantId) (q : QueueId) (v : Word32) (cells : List Bool) (b : RfId) (f : Fin 4) (p : Fin 8) (up : Bool) (s t : State) (c : Instr),
    exec c s = .next t →
    (InOneSled who sl n e h k r u q v cells c → t = s.setSled sl (t.sled sl) ∧ ∀ o, o ≠ sl → t.sled o = s.sled o) ∧
    (TenantWrites who sl u q v c → (s.bothTwins who sl u = false → t = s.setSled sl (t.sled sl)) ∧
      (s.bothTwins who sl u = true → t = (s.setSled sl (t.sled sl)).setSled (twinOf sl) (t.sled (twinOf sl))) ∧ ∀ o, o ≠ sl → o ≠ twinOf sl → t.sled o = s.sled o) ∧
    (OnTheRack who sl b f p v up c → t.sleds = s.sleds) ∧
    (c = .release who sl → ∀ o, o ≠ sl → t.sled o = s.sled o) ∧
    (c = .rackFactorBoot b → (s.rf b).peer = false → t.sleds = s.sleds)

/-! ### Where accesses and the commands of a tenant complete -/

/-- A span of one page translates to memory of its own sled, with the permission that the access needs, and nothing makes the access wait. -/
def Sys2Proof.Machine.Reaches (s1 : State) (sl : SledId) (c : CoreId) (a : Acc) (align va pos len : Nat) (d : Sled) (off : Nat) : Prop :=
  let k := s1.core sl c
  let x : Ctx := s1.ctx sl
  va % align = 0 ∧ va % 2 ^ 16 + len ≤ 2 ^ 16 ∧ ∃ l, (s1.sled sl).walk x k.tenant va = (d, .leaf l) ∧ permFault (bit k.state 0) a l = none ∧ d.target x l.pa = .mem off ∧
    (s1.setSled sl d).accessWaits sl c [⟨l.pa, pos, len, va⟩] = false ∧ (a = .store → k.remotePending = false)

/-- A scalar access whose address is aligned and reaches memory with the permission it needs completes: a load or an atomic is in flight with the bytes it found, a store or an atomic has left its bytes, and PC
moves on (R112, R113, R151, R153, Tables 5.8 and 5.9). -/
def Sys2Proof.Machine.ScalarAccessesComplete : Prop :=
  ∀ (sl : SledId) (c : CoreId) (s s1 : State) (i : IWord) (cmd : Instr) (mn : Mn) (indexed : Bool) (d : Sled) (off : Nat), Issues s sl c mn i s1 →
    let k := s1.core sl c
    let w := tWidth (iT i)
    let size := w / 8
    let va := k.address i indexed
    let old := bytesNat ((List.range size).map fun j => d.byte (off + j))
    let flies := fun (t : State) => ∃ f, (t.core sl c).flights = (d.core c).flights ++ [f] ∧ f.dst = (if iD i = 63 then .none else .s (iD i)) ∧ f.asks = [] ∧ f.data.toNat % 2 ^ w = old
    ((cmd, mn, indexed) ∈ [((.ld sl c : Instr), Mn.ld, false), (.ldx sl c, .ldx, true)] → Reaches s1 sl c .load size va 0 size d off →
      ∃ t, exec cmd s = .next t ∧ (t.core sl c).pc = k.pc + 16 ∧ flies t) ∧
    (∀ v, (cmd, mn, indexed, v) ∈ [((.st sl c : Instr), Mn.st, false, k.getS (iB i)), (.stx sl c, .stx, true, k.getS (iC i))] → Reaches s1 sl c .store size va 0 size d off →
      ∃ t, exec cmd s = .next t ∧ (t.core sl c).pc = k.pc + 16 ∧ (t.core sl c).flights = (d.core c).flights ∧ ∀ j, j < size → (t.sled sl).byte (off + j) = v.extractLsb' (8 * j) 8) ∧
    (∀ new, indexed = false → (cmd, mn, new) ∈ amoRows sl c w (iU i) old ((k.getS (iB i)).toNat % 2 ^ w) ((k.getS (iC i)).toNat % 2 ^ w) → Reaches s1 sl c .store size va 0 size d off →
      ∃ t, exec cmd s = .next t ∧ (t.core sl c).pc = k.pc + 16 ∧ flies t ∧
        ((∀ j, j < size → d.badByte (off + j) = false) → ∀ j, j < size → (t.sled sl).byte (off + j) = (BitVec.ofNat 64 new).extractLsb' (8 * j) 8))

/-- The wide and tile accesses with what they store (nothing for a load), their alignment, and the span of a whole register, or of the one active element of a gather or scatter (Tables 5.10, 5.12). -/
def Sys2Proof.Machine.wholeRows (sl : SledId) (c : CoreId) (k : Core) (i : IWord) : List (Instr × Mn × Option (List Byte) × Nat × (Nat × Nat × Nat)) :=
  let w := tWidth (iT i)
  let one := (k.indexSpans i).headD (0, 0, 0)
  [(.wld sl c, .wld, none, w / 8, (k.address i false, 0, 256)), (.wst sl c, .wst, some (toBytes (k.getW (iB i)) 256), w / 8, (k.address i false, 0, 256)),
   (.wldx sl c, .wldx, none, w / 8, one), (.wstx sl c, .wstx, some (toBytes (k.getW (iC i)) 256), w / 8, one),
   (.tld sl c, .tld, none, 4, (k.address i false, 0, 1024)), (.tst sl c, .tst, some (toBytes (k.getT (iB i)) 1024), 4, (k.address i false, 0, 1024))]

/-- A wide or tile access completes: with every part active, or for a gather or scatter one element active, where its span reaches memory within one page, and with no part active always, when it makes no access and
changes no register (R139, R154, R160). -/
def Sys2Proof.Machine.WideAccessesComplete : Prop :=
  ∀ (sl : SledId) (c : CoreId) (s s1 : State) (i : IWord) (cmd : Instr) (mn : Mn) (bs : Option (List Byte)) (align : Nat) (sp : Nat × Nat × Nat) (d : Sled) (off : Nat), Issues s sl c mn i s1 →
    let k := s1.core sl c
    let w := tWidth (iT i)
    let parts := fun (v : Bool) => match mn with
      | .tld | .tst => ∀ r, r < 16 → bit (k.pred i) r = v
      | .wldx | .wstx => (k.indexSpans i).length = if v then 1 else 0
      | _ => ∀ e, e < 2048 / w → elemOn (k.pred i) w e = v
    (cmd, mn, bs, align, sp) ∈ wholeRows sl c k i →
      (parts true → Reaches s1 sl c (if bs = none then .load else .store) align sp.1 sp.2.1 sp.2.2 d off → ∃ t, exec cmd s = .next t ∧ (t.core sl c).pc = k.pc + 16 ∧
        (bs = none → ∃ f, (t.core sl c).flights = (d.core c).flights ++ [f] ∧ f.dst = (if mn = .tld then .t (iD i) else .w (iD i)) ∧ f.asks = [] ∧
          ∀ j, j < sp.2.2 → f.data.extractLsb' (8 * (sp.2.1 + j)) 8 = d.byte (off + j)) ∧
        (∀ v, bs = some v → (t.core sl c).flights = (d.core c).flights ∧ ∀ j, j < sp.2.2 → (t.sled sl).byte (off + j) = v.getD (sp.2.1 + j) 0)) ∧
      (parts false → ∃ t, exec cmd s = .next t ∧ SameBytes s1 t ∧ t.fabric = s1.fabric ∧ t.core sl c = { k with pc := k.pc + 16, srcount := k.srAfter i })

/-- Writes to TNT_CTL and TNT_ALLOT that their rules accept are stored (R67, R68, R90); a tenant reset starts and ends (R88, R97), and a toll that is reached is shown and throttles its tenant (R87). -/
def Sys2Proof.Machine.TenantCommandsComplete : Prop :=
  ∀ (who : Requester) (sl : SledId) (u : TenantId) (v : Word32) (s : State), let d := s.sled sl; let others := allTenants.filter fun o => decide (o ≠ u) && bit (d.r32 .tntCtl o) 0
    let sum := fun (hi lo : Nat) => fld v hi lo + (others.map fun o => fld (d.r32 .tntAllot o) hi lo).sum
    (fld v 5 4 ≠ 3 → bit v 0 = false ∨ bit (d.r32 .tntCtl u) 0 = true ∨ others.length < 16 → ∃ t, exec (.tntCtlWrite who sl u v) s = .next t ∧ (t.sled sl).r32 .tntCtl u = v &&& 0x33) ∧
    (fld v 6 0 ≤ 96 → sum 6 0 ≤ d.healthyCores → sum 12 8 ≤ 16 → sum 25 16 ≤ 1000 → ∃ t, exec (.tntAllotWrite who sl u v) s = .next t ∧ (t.sled sl).r32 .tntAllot u = v &&& 0x3FF1F7F) ∧
    (d.resetBusy u = false → ∃ t, exec (.tntResetGo who sl u) s = .next t ∧ (if d.mirror u then ((t.sled sl).ten u).resetPend = true else (t.sled sl).resetBusy u = true)) ∧
    (d.resetBusy u = true → ∃ t, exec (.tenantResetDone sl u) s = .next t ∧ (t.sled sl).resetBusy u = false) ∧
    ((d.ten u).toll ≠ 0 → (d.ten u).tolled = false → d.active u = true → d.bell.settle ∉ [1, 2, 3] → 1000 * (d.ten u).toll.toNat ≤ (d.r64 .ledCur u).toNat →
      ∃ t, exec (.tollReached sl u) s = .next t ∧ bit ((t.sled sl).r32 .ledStatus u) 0 = true ∧ ((t.sled sl).ten u).tolled = true)

/-- Where the accesses of a core and the commands of a tenant complete. That a load reads, and a store is performed, at its issue is the model's choice (log 70). -/
def Obligations.AccessesAndTenantCommandsComplete : Prop :=
  Sys2Proof.Machine.ScalarAccessesComplete ∧ Sys2Proof.Machine.WideAccessesComplete ∧ Sys2Proof.Machine.TenantCommandsComplete
end

