-- ==== Sys2Proof/Laws/Map.lean ====
section
/-! SUPPORT. Laws of the sparse tables: a read after a write, and the canonical form that every write keeps. -/
namespace Sys2Proof.Machine

variable {α : Type}

theorem mgetD_mdrop (d : α) (k j : Nat) (m : Map α) : mgetD d (mdrop k m) j = if j = k then d else mgetD d m j := by
  induction m with
  | nil => simp [mdrop, mgetD]
  | cons e m ih =>
    obtain ⟨i, v⟩ := e
    by_cases h : i = k
    · subst h
      simp only [mdrop, if_pos, mgetD, ih]
      by_cases hj : j = i
      · simp [hj]
      · simp [hj, Ne.symm hj]
    · simp only [mdrop, if_neg h, mgetD, ih]
      by_cases hj : i = j
      · subst hj; simp [h]
      · simp [hj]

theorem mgetD_mins (d : α) (k j : Nat) (v : α) (m : Map α) :
    mgetD d (mins k v (mdrop k m)) j = if j = k then v else mgetD d m j := by
  have key : ∀ n : Map α, (∀ e ∈ n, e.1 ≠ k) → mgetD d (mins k v n) j = if j = k then v else mgetD d n j := by
    intro n hn
    induction n with
    | nil => by_cases hj : j = k
             · simp [mins, mgetD, hj]
             · simp [mins, mgetD, hj, Ne.symm hj]
    | cons e n ih =>
      obtain ⟨i, w⟩ := e
      have hi : i ≠ k := hn (i, w) (by simp)
      simp only [mins]
      split
      · by_cases hj : j = k
        · subst hj; simp [mgetD]
        · simp [mgetD, hj, Ne.symm hj]
      · simp only [mgetD, ih (fun e he => hn e (by simp [he]))]
        by_cases hj : i = j
        · subst hj; simp [hi]
        · simp [hj]
  have hdrop : ∀ e ∈ mdrop k m, e.1 ≠ k := by
    induction m with
    | nil => simp [mdrop]
    | cons e m ih =>
      obtain ⟨i, w⟩ := e
      by_cases hi : i = k
      · simpa [mdrop, hi] using ih
      · intro e he
        simp only [mdrop, if_neg hi, List.mem_cons] at he
        rcases he with rfl | he
        · exact hi
        · exact ih e he
  rw [key _ hdrop, mgetD_mdrop]
  by_cases hj : j = k <;> simp [hj]

/-- A read after a write: the value written at its key, the old value at any other. -/
theorem mgetD_msetD [DecidableEq α] (d : α) (m : Map α) (k j : Nat) (v : α) :
    mgetD d (msetD d m k v) j = if j = k then v else mgetD d m j := by
  unfold msetD
  split
  · next h => rw [mgetD_mdrop, h]
  · exact mgetD_mins d k j v m

@[simp] theorem mget_mset [Inhabited α] [DecidableEq α] (m : Map α) (k j : Nat) (v : α) :
    mget (mset m k v) j = if j = k then v else mget m j := mgetD_msetD default m k j v

@[simp] theorem mget_mmod [Inhabited α] [DecidableEq α] (m : Map α) (k j : Nat) (f : α → α) :
    mget (mmod m k f) j = if j = k then f (mget m k) else mget m j := mgetD_msetD default m k j _

@[simp] theorem mget_nil [Inhabited α] (k : Nat) : mget ([] : Map α) k = default := rfl

/-! ### The canonical form -/

/-- The canonical form by its parts: no entry holds the unlisted value, and the keys of neighbours rise. -/
theorem mwfD_cons [DecidableEq α] (d : α) (k : Nat) (v : α) (m : Map α) :
    mwfD d ((k, v) :: m) = true ↔ v ≠ d ∧ (∀ e ∈ m.head?, k < e.1) ∧ mwfD d m = true := by
  cases m with
  | nil => simp [mwfD]
  | cons e m => obtain ⟨j, w⟩ := e; simp [mwfD, and_assoc]

theorem mwfD_lt [DecidableEq α] (d : α) (k : Nat) (v : α) (m : Map α) (h : mwfD d ((k, v) :: m) = true) : ∀ e ∈ m, k < e.1 := by
  induction m generalizing k v with
  | nil => simp
  | cons e m ih =>
    obtain ⟨j, w⟩ := e
    rw [mwfD_cons] at h
    have hkj : k < j := h.2.1 (j, w) (by simp)
    intro e he
    rcases List.mem_cons.1 he with rfl | he
    · exact hkj
    · exact Nat.lt_trans hkj (ih j w h.2.2 e he)

theorem mwfD_mdrop [DecidableEq α] (d : α) (k : Nat) (m : Map α) (h : mwfD d m = true) : mwfD d (mdrop k m) = true := by
  induction m with
  | nil => simpa [mdrop] using h
  | cons e m ih =>
    obtain ⟨j, v⟩ := e
    have hl := mwfD_lt d j v m h
    rw [mwfD_cons] at h
    simp only [mdrop]
    split
    · exact ih h.2.2
    · rw [mwfD_cons]
      refine ⟨h.1, ?_, ih h.2.2⟩
      intro e he
      have hm : e ∈ mdrop k m := List.mem_of_mem_head? he
      have sub : ∀ n : Map α, ∀ e ∈ mdrop k n, e ∈ n := by
        intro n
        induction n with
        | nil => simp [mdrop]
        | cons a n ihn =>
          obtain ⟨i, w⟩ := a
          intro e he
          simp only [mdrop] at he
          split at he
          · exact List.mem_cons_of_mem _ (ihn e he)
          · rcases List.mem_cons.1 he with rfl | he
            · simp
            · exact List.mem_cons_of_mem _ (ihn e he)
      exact hl e (sub m e hm)

theorem mwfD_mins [DecidableEq α] (d : α) (k : Nat) (v : α) (hv : v ≠ d) (m : Map α) (hm : ∀ e ∈ m, e.1 ≠ k)
    (h : mwfD d m = true) : mwfD d (mins k v m) = true := by
  induction m with
  | nil => simp [mins, mwfD, hv]
  | cons e m ih =>
    obtain ⟨j, w⟩ := e
    have hj : j ≠ k := hm (j, w) (by simp)
    simp only [mins]
    split
    · next hkj => rw [mwfD_cons]; exact ⟨hv, by simpa using hkj, h⟩
    · next hkj =>
      have hl := mwfD_lt d j w m h
      rw [mwfD_cons] at h ⊢
      refine ⟨h.1, ?_, ih (fun e he => hm e (by simp [he])) h.2.2⟩
      intro e he
      have hjk : j < k := by omega
      cases m with
      | nil => simp [mins] at he; subst he; exact hjk
      | cons a m =>
        obtain ⟨i, u⟩ := a
        simp only [mins] at he
        split at he
        · simp at he; subst he; exact hjk
        · simp at he; subst he; exact hl (i, u) (by simp)

/-- Every write keeps the canonical form. -/
theorem mwfD_msetD [DecidableEq α] (d : α) (m : Map α) (k : Nat) (v : α) (h : mwfD d m = true) : mwfD d (msetD d m k v) = true := by
  unfold msetD
  split
  · exact mwfD_mdrop d k m h
  · next hv =>
    refine mwfD_mins d k v hv _ ?_ (mwfD_mdrop d k m h)
    clear h hv
    induction m with
    | nil => simp [mdrop]
    | cons e m ih =>
      obtain ⟨i, w⟩ := e
      by_cases hi : i = k
      · simpa [mdrop, hi] using ih
      · intro e he
        simp only [mdrop, if_neg hi, List.mem_cons] at he
        rcases he with rfl | he
        · exact hi
        · exact ih e he

theorem wf_mset [Inhabited α] [DecidableEq α] (m : Map α) (k : Nat) (v : α) (h : Map.wf m) : Map.wf (mset m k v) := mwfD_msetD default m k v h
theorem wf_mmod [Inhabited α] [DecidableEq α] (m : Map α) (k : Nat) (f : α → α) (h : Map.wf m) : Map.wf (mmod m k f) := mwfD_msetD default m k _ h

/-- Keys of a written table: the old ones and the one written. -/
theorem mset_keys [Inhabited α] [DecidableEq α] (m : Map α) (k n : Nat) (v : α) (hk : k < n) (h : ∀ e ∈ m, e.1 < n) : ∀ e ∈ mset m k v, e.1 < n := by
  have drop : ∀ l : Map α, (∀ e ∈ l, e.1 < n) → ∀ e ∈ mdrop k l, e.1 < n := by
    intro l hl
    induction l with
    | nil => simp [mdrop]
    | cons a l ih =>
      obtain ⟨i, w⟩ := a
      intro e he
      simp only [mdrop] at he
      split at he
      · exact ih (fun e he => hl e (by simp [he])) e he
      · rcases List.mem_cons.1 he with rfl | he
        · exact hl _ (by simp)
        · exact ih (fun e he => hl e (by simp [he])) e he
  have ins : ∀ l : Map α, (∀ e ∈ l, e.1 < n) → ∀ e ∈ mins k v l, e.1 < n := by
    intro l hl
    induction l with
    | nil => simpa [mins] using hk
    | cons a l ih =>
      obtain ⟨i, w⟩ := a
      intro e he
      simp only [mins] at he
      split at he
      · rcases List.mem_cons.1 he with rfl | he
        · exact hk
        · exact hl e he
      · rcases List.mem_cons.1 he with rfl | he
        · exact hl _ (by simp)
        · exact ih (fun e he => hl e (by simp [he])) e he
  unfold mset msetD
  split
  · exact drop m h
  · exact ins _ (drop m h)

end Sys2Proof.Machine
end

