-- ==== Sys2Proof/Laws/State.lean ====
section
/-! SUPPORT. Reading and writing the parts of State: sleds, cores, Rack Factors, counts, time. -/
namespace Sys2Proof.Machine

/-! ### Tables written twice -/

theorem mdrop_mdrop {α : Type} (k : Nat) (m : Map α) : mdrop k (mdrop k m) = mdrop k m := by
  induction m with
  | nil => rfl
  | cons e m ih => obtain ⟨j, v⟩ := e; by_cases h : j = k <;> simp [mdrop, h, ih]

theorem mdrop_mins {α : Type} (k : Nat) (v : α) (m : Map α) : mdrop k (mins k v m) = mdrop k m := by
  induction m with
  | nil => simp [mins, mdrop]
  | cons e m ih =>
    obtain ⟨j, w⟩ := e
    by_cases h : k < j <;> by_cases h2 : j = k <;> simp [mins, mdrop, h, h2, ih]

/-- The last write of a key is the one that stands. -/
@[simp] theorem mset_mset {α : Type} [Inhabited α] [DecidableEq α] (m : Map α) (k : Nat) (v w : α) : mset (mset m k v) k w = mset m k w := by
  have h : mdrop k (mset m k v) = mdrop k m := by
    unfold mset msetD
    split
    · exact mdrop_mdrop k m
    · rw [mdrop_mins, mdrop_mdrop]
  simp only [mset, msetD] at *
  rw [h]

/-! ### Sleds and Rack Factors -/

theorem State.sled_setSled (s : State) (sl x : SledId) (d : Sled) : (s.setSled sl d).sled x = if x = sl then d else s.sled x := by
  simp [State.sled, State.setSled, Fin.ext_iff]

@[simp] theorem State.sled_setSled_self (s : State) (sl : SledId) (d : Sled) : (s.setSled sl d).sled sl = d := by simp [State.sled_setSled]
@[simp] theorem State.sled_setSled_ne (s : State) (sl x : SledId) (d : Sled) (h : x ≠ sl) : (s.setSled sl d).sled x = s.sled x := by
  simp [State.sled_setSled, h]
@[simp] theorem State.setSled_setSled (s : State) (sl : SledId) (d e : Sled) : (s.setSled sl d).setSled sl e = s.setSled sl e := by simp [State.setSled]
@[simp] theorem State.setSled_pending (s : State) (sl : SledId) (d : Sled) : (s.setSled sl d).pending = s.pending := rfl
@[simp] theorem State.setSled_now (s : State) (sl : SledId) (d : Sled) : (s.setSled sl d).now = s.now := rfl
@[simp] theorem State.setSled_reply (s : State) (sl : SledId) (d : Sled) : (s.setSled sl d).reply = s.reply := rfl
@[simp] theorem State.setSled_rfs (s : State) (sl : SledId) (d : Sled) : (s.setSled sl d).rfs = s.rfs := rfl
@[simp] theorem State.setSled_fabric (s : State) (sl : SledId) (d : Sled) : (s.setSled sl d).fabric = s.fabric := rfl
@[simp] theorem State.setSled_mail (s : State) (sl : SledId) (d : Sled) : (s.setSled sl d).mail = s.mail := rfl
@[simp] theorem State.setSled_rack (s : State) (sl : SledId) (d : Sled) : (s.setSled sl d).rack = s.rack := rfl
@[simp] theorem State.setSled_reports (s : State) (sl : SledId) (d : Sled) : (s.setSled sl d).reports = s.reports := rfl

theorem State.rf_setRf (s : State) (b x : RfId) (r : RackFactor) : (s.setRf b r).rf x = if x = b then r else s.rf x := by
  simp [State.rf, State.setRf, Fin.ext_iff]
@[simp] theorem State.rf_setRf_self (s : State) (b : RfId) (r : RackFactor) : (s.setRf b r).rf b = r := by simp [State.rf_setRf]
@[simp] theorem State.sled_setRf (s : State) (b : RfId) (r : RackFactor) (sl : SledId) : (s.setRf b r).sled sl = s.sled sl := rfl
@[simp] theorem State.rf_setSled (s : State) (sl : SledId) (d : Sled) (b : RfId) : (s.setSled sl d).rf b = s.rf b := rfl
@[simp] theorem State.setRf_pending (s : State) (b : RfId) (r : RackFactor) : (s.setRf b r).pending = s.pending := rfl
@[simp] theorem State.setRf_now (s : State) (b : RfId) (r : RackFactor) : (s.setRf b r).now = s.now := rfl
@[simp] theorem State.sled_upTo (s : State) (n : Nat) (sl : SledId) : (s.upTo n).sled sl = s.sled sl := rfl
@[simp] theorem State.rf_upTo (s : State) (n : Nat) (b : RfId) : (s.upTo n).rf b = s.rf b := rfl
@[simp] theorem State.upTo_pending (s : State) (n : Nat) : (s.upTo n).pending = s.pending := rfl
@[simp] theorem State.upTo_now (s : State) (n : Nat) : (s.upTo n).now = max s.now n := rfl

/-! ### Cores and counts -/

theorem Sled.core_setCore (d : Sled) (c e : CoreId) (k : Core) : (d.setCore c k).core e = if e = c then k else d.core e := by
  simp [Sled.core, Sled.setCore, Fin.ext_iff]
@[simp] theorem Sled.core_onCore_self (d : Sled) (c : CoreId) (f : Core → Core) : (d.onCore c f).core c = f (d.core c) := by
  simp [Sled.onCore, Sled.core_setCore]
@[simp] theorem Sled.core_onCore_ne (d : Sled) (c e : CoreId) (f : Core → Core) (h : e ≠ c) : (d.onCore c f).core e = d.core e := by
  simp [Sled.onCore, Sled.core_setCore, h]
@[simp] theorem Sled.core_tally (d : Sled) (t i n : Nat) (c : CoreId) : (d.tally t i n).core c = d.core c := rfl
@[simp] theorem Sled.counts_onCore (d : Sled) (c : CoreId) (f : Core → Core) : (d.onCore c f).counts = d.counts := rfl
/-! ### What the contents of memory depend on -/

theorem Sled.share_congr {d e : Sled} (h : d.cfg = e.cfg) : d.share = e.share := by unfold Sled.share Sled.r32; rw [h]
theorem Sled.regions_congr {d e : Sled} (h : d.cfg = e.cfg) : d.regions = e.regions := by unfold Sled.regions Sled.r64; rw [h]
theorem Sled.poolStacks_congr {d e : Sled} (h : d.units = e.units) : d.poolStacks = e.poolStacks := by
  unfold Sled.poolStacks Sled.healthyStacks; rw [h]

theorem Sled.rawAt_congr {d e : Sled} (h1 : d.cfg = e.cfg) (h2 : d.convs = e.convs) : d.rawAt = e.rawAt := by
  funext off
  unfold Sled.rawAt
  rw [Sled.regions_congr h1, h2]

theorem Sled.class_congr {d e : Sled} (h1 : d.cfg = e.cfg) (h2 : d.units = e.units) (h3 : d.convs = e.convs) : d.class = e.class := by
  funext off
  unfold Sled.class
  rw [Sled.share_congr h1, Sled.rawAt_congr h1 h3, Sled.poolStacks_congr h2, h2]

theorem Sled.cellWord_congr {d e : Sled} (h : d.mem = e.mem) : d.cellWord = e.cellWord := by
  funext k
  unfold Sled.cellWord Sled.cell
  rw [h]

theorem Sled.eccRead_congr {d e : Sled} (h1 : d.mem = e.mem) (h2 : d.ecc = e.ecc) (h3 : d.cfg = e.cfg) (h4 : d.units = e.units) (h5 : d.convs = e.convs) :
    d.eccRead = e.eccRead := by
  funext k
  unfold Sled.eccRead
  rw [Sled.cellWord_congr h1, Sled.class_congr h3 h4 h5, h2]

theorem Sled.fill_congr {d e : Sled} (h1 : d.mem = e.mem) (h2 : d.ecc = e.ecc) (h3 : d.cfg = e.cfg) (h4 : d.units = e.units) (h5 : d.convs = e.convs) : d.fill = e.fill := by
  funext ln
  unfold Sled.fill
  rw [Sled.eccRead_congr h1 h2 h3 h4 h5]

/-- Two sleds with the same cells, caches and map hold the same lines. -/
theorem Sled.line_congr {d e : Sled} (h0 : d.cache = e.cache) (h1 : d.mem = e.mem) (h2 : d.ecc = e.ecc) (h3 : d.cfg = e.cfg) (h4 : d.units = e.units) (h5 : d.convs = e.convs) :
    d.line = e.line := by
  funext ln
  unfold Sled.line
  rw [Sled.fill_congr h1 h2 h3 h4 h5, h0]

theorem Sled.byte_congr {d e : Sled} (h0 : d.cache = e.cache) (h1 : d.mem = e.mem) (h2 : d.ecc = e.ecc) (h3 : d.cfg = e.cfg) (h4 : d.units = e.units) (h5 : d.convs = e.convs) :
    d.byte = e.byte := by
  funext off
  unfold Sled.byte
  rw [Sled.line_congr h0 h1 h2 h3 h4 h5]

@[simp] theorem Sled.byte_onCore (d : Sled) (c : CoreId) (f : Core → Core) : (d.onCore c f).byte = d.byte := Sled.byte_congr rfl rfl rfl rfl rfl rfl
@[simp] theorem Sled.byte_tally (d : Sled) (t i n : Nat) : (d.tally t i n).byte = d.byte := Sled.byte_congr rfl rfl rfl rfl rfl rfl

@[simp] theorem State.core_onCore_self (s : State) (sl : SledId) (c : CoreId) (f : Core → Core) : (s.onCore sl c f).core sl c = f (s.core sl c) := by
  simp [State.core, State.onCore]
@[simp] theorem State.core_onCore_ne (s : State) (sl : SledId) (c e : CoreId) (f : Core → Core) (h : e ≠ c) :
    (s.onCore sl c f).core sl e = s.core sl e := by
  simp [State.core, State.onCore, h]
@[simp] theorem State.core_tally (s : State) (sl : SledId) (t : TenantId) (i n : Nat) (c : CoreId) : (s.tally sl t i n).core sl c = s.core sl c := by
  simp [State.core, State.tally]

/-! ### Instructions that change their core alone -/

theorem OnlyCore.mk' (s : State) (sl : SledId) (c : CoreId) (cs : Map Core) (ns : Map Nat)
    (h : ∀ e : CoreId, e ≠ c → mget cs e = mget (s.sled sl).cores e) : OnlyCore s (s.setSled sl { s.sled sl with cores := cs, counts := ns }) sl c := by
  refine ⟨⟨cs, ns, rfl⟩, fun e he => ?_, fun x off => ?_⟩
  · simpa [State.core, Sled.core] using h e he
  · rw [State.sled_setSled]
    split
    · next h => subst h; exact congrFun (Sled.byte_congr rfl rfl rfl rfl rfl rfl) off
    · rfl

/-- Replacing a core and counting an instruction change nothing else. -/
theorem Retires.intro (s : State) (sl : SledId) (c : CoreId) (k : Core) (ns : Map Nat)
    (h : mget ns ((s.core sl c).tenant.val * 32 + 6) = s.tallied sl (s.core sl c).tenant 6 + 1) :
    Retires s (s.setSled sl { s.sled sl with cores := mset (s.sled sl).cores c k, counts := ns }) sl c := by
  refine ⟨OnlyCore.mk' s sl c _ ns fun e he => ?_, ?_⟩
  · simp [Fin.val_ne_of_ne he]
  · simpa [State.tallied] using h

end Sys2Proof.Machine
end

