-- ==== Sys2Proof/Laws/Issue.lean ====
section
/-! SUPPORT. What an instruction that issues does: its body, then the counting of the instruction and the step of PC. -/
namespace Sys2Proof.Machine

/-- An instruction with nothing in its way carries out its body on the state after the fetch. -/
theorem xehal_issues {s s1 : State} {sl : SledId} {c : CoreId} {mn : Mn} {i : IWord} (h : Issues s sl c mn i s1) (body : State → IWord → XOut) :
    s.xehal sl c mn body = (body s1 i).done s sl c (s1.core sl c) i := by
  obtain ⟨hm, hf, sp, hs, hmn, hl, hk, hp, hb, hq⟩ := h
  have hk' : (needsKernel sp i && !bit (s1.core sl c).state 0) = false := by
    cases hn : needsKernel sp i
    · rfl
    · simp [hk hn]
  have hp' : (decide (sp.pred = .scalar) && !bit ((s1.core sl c).pred i) 0) = false := by
    by_cases hn : sp.pred = .scalar
    · simp [hp hn]
    · simp [hn]
  simp only [State.xehal, hm, hf, hs, hmn, State.issue, hl, hk', hp', hb, hq, Bool.not_true, Bool.false_eq_true, ↓reduceIte]

theorem State.onCore_eq (s : State) (sl : SledId) (c : CoreId) (f : Core → Core) :
    s.onCore sl c f = s.setSled sl { s.sled sl with cores := mset (s.sled sl).cores c (f (s.core sl c)) } := rfl

theorem State.tally_eq (s : State) (sl : SledId) (t : TenantId) (idx n : Nat) :
    s.tally sl t idx n = s.setSled sl { s.sled sl with counts := mmod (s.sled sl).counts (t.val * 32 + idx) (· + n) } := rfl

/-- The state after an instruction that changes its core by `f`: the core, SRCOUNT, PC and the count of instructions. -/
theorem done_onCore (s0 s : State) (sl : SledId) (c : CoreId) (i : IWord) (f : Core → Core) :
    (XOut.next (s.onCore sl c f)).done s0 sl c (s.core sl c) i =
      s.setSled sl { s.sled sl with cores := mset (s.sled sl).cores c { (f (s.core sl c)).stepSr i with pc := (s.core sl c).pc + 16 },
                                    counts := mmod (s.sled sl).counts ((s.core sl c).tenant.val * 32 + 6) (· + 1) } := by
  simp only [XOut.done, State.retire, State.onCore_eq, State.tally_eq, State.core, Sled.core, State.sled_setSled_self, State.setSled_setSled, mset_mset,
    mget_mset, ↓reduceIte]

/-- The same for an instruction that counts `n` events besides. -/
theorem done_tally_onCore (s0 s : State) (sl : SledId) (c : CoreId) (i : IWord) (idx n : Nat) (f : Core → Core) :
    (XOut.next ((s.tally sl (s.core sl c).tenant idx n).onCore sl c f)).done s0 sl c (s.core sl c) i =
      s.setSled sl { s.sled sl with cores := mset (s.sled sl).cores c { (f (s.core sl c)).stepSr i with pc := (s.core sl c).pc + 16 },
                                    counts := mmod (mmod (s.sled sl).counts ((s.core sl c).tenant.val * 32 + idx) (· + n))
                                      ((s.core sl c).tenant.val * 32 + 6) (· + 1) } := by
  simp only [XOut.done, State.retire, State.onCore_eq, State.tally_eq, State.core, Sled.core, State.sled_setSled_self, State.setSled_setSled, mset_mset,
    mget_mset, ↓reduceIte]

/-- An instruction whose body changes its core alone retires, and its core is as the body left it but for SRCOUNT and PC. -/
theorem completes_onCore {s s1 : State} {sl : SledId} {c : CoreId} {mn : Mn} {i : IWord} (h : Issues s sl c mn i s1) (body : State → IWord → XOut)
    (f : Core → Core) (hb : body s1 i = .next (s1.onCore sl c f)) :
    Retires s1 (s.xehal sl c mn body) sl c ∧
      (s.xehal sl c mn body).core sl c = { (f (s1.core sl c)).stepSr i with pc := (s1.core sl c).pc + 16 } := by
  rw [xehal_issues h, hb, done_onCore]
  refine ⟨Retires.intro s1 sl c _ _ (by simp [State.tallied]), ?_⟩
  simp [State.core, Sled.core]

/-- The same with events counted. -/
theorem completes_tally {s s1 : State} {sl : SledId} {c : CoreId} {mn : Mn} {i : IWord} (h : Issues s sl c mn i s1) (body : State → IWord → XOut)
    (f : Core → Core) (idx n : Nat) (hi : idx ≠ 6) (hb : body s1 i = .next ((s1.tally sl (s1.core sl c).tenant idx n).onCore sl c f)) :
    Retires s1 (s.xehal sl c mn body) sl c ∧
      (s.xehal sl c mn body).core sl c = { (f (s1.core sl c)).stepSr i with pc := (s1.core sl c).pc + 16 } := by
  rw [xehal_issues h, hb, done_tally_onCore]
  refine ⟨Retires.intro s1 sl c _ _ (by simp [State.tallied, Ne.symm hi]), ?_⟩
  simp [State.core, Sled.core]

end Sys2Proof.Machine
end

