-- ==== Sys2Proof/Laws/Mem.lean ====
section
/-! SUPPORT. Memory: every operation on a sled's cells keeps their canonical form. -/
namespace Sys2Proof.Machine

/-- A property that every step of a fold keeps holds of its result. -/
theorem foldl_keeps {α β : Type} (P : α → Prop) (f : α → β → α) (h : ∀ a b, P a → P (f a b)) (l : List β) : ∀ a, P a → P (l.foldl f a) := by
  induction l with
  | nil => exact fun _ h => h
  | cons b l ih => exact fun a ha => ih _ (h a b ha)

theorem wf_putCells (m : Map Byte) (off : Nat) (bs : List Byte) (h : Memory.wf m) : Memory.wf (putCells m off bs) := by
  induction bs generalizing m off with
  | nil => exact h
  | cons b bs ih => exact ih _ _ (wf_mset m off b h)

/-- Leaving entries out keeps the form. -/
theorem wf_filter {α : Type} [Inhabited α] [DecidableEq α] (m : Map α) (p : Nat × α → Bool) (h : Map.wf m) : Map.wf (m.filter p) := by
  induction m with
  | nil => exact h
  | cons e m ih =>
    obtain ⟨k, v⟩ := e
    have hl := mwfD_lt default k v m h
    have h' := (mwfD_cons default k v m).1 h
    by_cases hp : p (k, v) = true
    · rw [List.filter_cons_of_pos hp, Map.wf, mwfD_cons]
      refine ⟨h'.1, fun e he => ?_, ih h'.2.2⟩
      exact hl e (List.mem_of_mem_filter (List.mem_of_mem_head? he))
    · rw [List.filter_cons_of_neg hp]
      exact ih h'.2.2

@[simp] theorem Sled.mem_keepText (d : Sled) (ln : Nat) : (d.keepText ln).mem = d.mem := rfl
@[simp] theorem Sled.mem_stepFree (d : Sled) : d.stepFree.mem = d.mem := rfl
@[simp] theorem Sled.mem_dropNode (d : Sled) (ln : Nat) : (d.dropNode ln).mem = d.mem := rfl
@[simp] theorem Sled.mem_dropLine (d : Sled) (ln : Nat) : (d.dropLine ln).mem = d.mem := rfl
theorem Sled.wf_eccNote (x : Ctx) (d : Sled) (k : Nat) (h : Memory.wf d.mem) : Memory.wf (d.eccNote x k).mem := by
  dsimp only [Sled.eccNote]
  split
  · exact h
  · split
    · exact wf_putCells _ _ _ h
    · exact h

theorem Sled.wf_noteFill (x : Ctx) (d : Sled) (ln : Nat) (h : Memory.wf d.mem) : Memory.wf (d.noteFill x ln).mem :=
  foldl_keeps (fun d : Sled => Memory.wf d.mem) _ (fun a _ ha => a.wf_eccNote x _ ha) _ d h

/-- Tracking a write-back corrects what it reads of the old line, and no more. -/
theorem Sled.wf_noteBack (x : Ctx) (d : Sled) (ln : Nat) (h : Memory.wf d.mem) : Memory.wf (d.noteBack x ln).mem := by
  dsimp only [Sled.noteBack]
  split
  · split <;> exact h
  · split
    · exact h
    · dsimp only
      exact d.wf_noteFill x ln h
  · exact h

theorem Sled.wf_putWords (d : Sled) (ln : Nat) (data : BitVec 512) (poison words : BitVec 8) (h : Memory.wf d.mem) :
    Memory.wf (d.putWords ln data poison words).mem :=
  foldl_keeps Memory.wf _ (fun m _ hm => wf_putCells m _ _ hm) _ d.mem h

theorem Sled.wf_touch (x : Ctx) (d : Sled) (ln : Nat) (h : Memory.wf d.mem) : Memory.wf (d.touch x ln).mem := by
  dsimp only [Sled.touch]
  split
  · exact h
  · rw [Sled.mem_stepFree]
    exact d.wf_noteFill x ln h

theorem Sled.wf_coRead (x : Ctx) (d : Sled) (off n : Nat) (h : Memory.wf d.mem) : Memory.wf (d.coRead x off n).1.mem :=
  foldl_keeps (fun d : Sled => Memory.wf d.mem) _ (fun a ln ha => a.wf_touch x ln ha) _ d h

theorem Sled.wf_rawRead (x : Ctx) (d : Sled) (off n : Nat) (h : Memory.wf d.mem) : Memory.wf (d.rawRead x off n).1.mem :=
  foldl_keeps (fun d : Sled => Memory.wf d.mem) _ (fun a k ha => a.wf_eccNote x k ha) _ d h

theorem Sled.wf_writeBack (x : Ctx) (d : Sled) (ln : Nat) (l : Line) (h : Memory.wf d.mem) : Memory.wf (d.writeBack x ln l).mem :=
  Sled.wf_putWords _ _ _ _ _ (d.wf_noteBack x ln h)

theorem Sled.wf_putLine (x : Ctx) (d : Sled) (ln : Nat) (l : Line) (h : Memory.wf d.mem) : Memory.wf (d.putLine x ln l).mem := by
  dsimp only [Sled.putLine]
  split
  · exact h
  · exact Sled.wf_writeBack x _ ln l (by simpa using h)

theorem Sled.wf_storeLine (x : Ctx) (d : Sled) (off : Nat) (bs : List Byte) (ln : Nat) (h : Memory.wf d.mem) : Memory.wf (d.storeLine x off bs ln).mem := by
  dsimp only [Sled.storeLine]
  split
  · exact d.wf_putLine x ln _ h
  · exact Sled.wf_putLine x _ ln _ (d.wf_noteFill x ln h)

theorem Sled.wf_coWrite (x : Ctx) (d : Sled) (off : Nat) (bs : List Byte) (h : Memory.wf d.mem) : Memory.wf (d.coWrite x off bs).mem :=
  foldl_keeps (fun d : Sled => Memory.wf d.mem) _ (fun a ln ha => a.wf_storeLine x off bs ln ha) _ d h

theorem Sled.wf_coPoison (x : Ctx) (d : Sled) (off : Nat) (h : Memory.wf d.mem) : Memory.wf (d.coPoison x off).mem := d.wf_putLine x _ _ h

theorem Sled.wf_flushLine (x : Ctx) (d : Sled) (ln : Nat) (h : Memory.wf d.mem) : Memory.wf (d.flushLine x ln).mem := by
  unfold Sled.flushLine
  split
  · split
    · exact d.wf_writeBack x ln _ h
    · exact h
  · exact h

theorem Sled.wf_rawWrite (x : Ctx) (d : Sled) (off : Nat) (bs : List Byte) (h : Memory.wf d.mem) : Memory.wf (d.rawWrite x off bs).mem :=
  wf_putCells _ _ _ (foldl_keeps (fun d : Sled => Memory.wf d.mem) _ (fun a ln ha => Sled.wf_noteBack x _ ln (by simpa using ha)) _ d h)

theorem Sled.wf_endConv (d : Sled) (c : Conv) (h : Memory.wf d.mem) : Memory.wf (d.endConv c).mem := by
  unfold Sled.endConv
  split
  · exact h
  · exact wf_filter _ _ h

/-- A unit's access that ends running conversions keeps the form. -/
theorem Sled.wf_stall (d : Sled) (off n : Nat) (h : Memory.wf d.mem) : Memory.wf (d.stall off n).mem := by
  dsimp only [Sled.stall]
  split
  · exact h
  · exact foldl_keeps (fun d : Sled => Memory.wf d.mem) _ (fun a c ha => a.wf_endConv c ha) _ d h

theorem Sled.wf_load (x : Ctx) (d : Sled) (ln : Nat) (h : Memory.wf d.mem) : Memory.wf (d.load x ln).mem := by
  dsimp only [Sled.load]
  split
  · exact h
  · dsimp only
    exact d.wf_noteFill x ln h

/-- Reset's memory lists nothing. -/
theorem wf_reset_mem (sl : SledId) : Memory.wf (State.reset.sled sl).mem := rfl

end Sys2Proof.Machine
end

