-- ==== Sys2Proof/Laws/Results.lean ====
section
/-! SUPPORT. What writing a register of a core changes: scalar, predicate, elements of a wide register, elements of a tile. -/
namespace Sys2Proof.Machine

/-! ### Elements -/

/-- The number whose digits in base 2^w are given has those digits. -/
theorem digits_foldr (w : Nat) (f : Nat → Nat) : ∀ (l : List Nat) (e : Nat), e < l.length →
    (l.foldr (fun x a => f x % 2 ^ w + 2 ^ w * a) 0) / 2 ^ (w * e) % 2 ^ w = f (l.getD e 0) % 2 ^ w
  | [], e, h => by simp at h
  | x :: l, 0, _ => by simp [Nat.add_mul_mod_self_left]
  | x :: l, e + 1, h => by
    have ih := digits_foldr w f l e (by simpa using h)
    have hp : 0 < 2 ^ w := Nat.two_pow_pos w
    have : (f x % 2 ^ w + 2 ^ w * l.foldr (fun x a => f x % 2 ^ w + 2 ^ w * a) 0) / 2 ^ w = l.foldr (fun x a => f x % 2 ^ w + 2 ^ w * a) 0 := by
      rw [Nat.add_mul_div_left _ _ hp, Nat.div_eq_of_lt (Nat.mod_lt _ hp), Nat.zero_add]
    simp only [List.foldr_cons, Nat.mul_succ, Nat.pow_add, List.getD_cons_succ]
    rw [Nat.mul_comm (2 ^ (w * e)) (2 ^ w), ← Nat.div_div_eq_div_mul, this, ih]

theorem foldr_lt (w : Nat) (f : Nat → Nat) (l : List Nat) : l.foldr (fun x a => f x % 2 ^ w + 2 ^ w * a) 0 < 2 ^ (w * l.length) := by
  induction l with
  | nil => simp
  | cons x l ih =>
    have hp : 0 < 2 ^ w := Nat.two_pow_pos w
    have h1 : f x % 2 ^ w < 2 ^ w := Nat.mod_lt _ hp
    simp only [List.foldr_cons, List.length_cons, Nat.mul_succ, Nat.pow_add]
    have h2 : 2 ^ w * l.foldr (fun x a => f x % 2 ^ w + 2 ^ w * a) 0 + 2 ^ w ≤ 2 ^ w * 2 ^ (w * l.length) := by
      rw [← Nat.mul_succ]; exact Nat.mul_le_mul_left _ ih
    rw [Nat.mul_comm (2 ^ (w * l.length))]
    omega

/-- An element of a register built from its elements. -/
theorem elt_ofElts (bits w n : Nat) (f : Nat → Nat) (e : Nat) (he : e < n) (hn : w * n ≤ bits) : elt w (ofElts bits w n f) e = f e % 2 ^ w := by
  have hlt := foldr_lt w f (List.range n)
  simp only [List.length_range] at hlt
  have : (ofElts bits w n f).toNat = (List.range n).foldr (fun e a => f e % 2 ^ w + 2 ^ w * a) 0 := by
    simp only [ofElts, BitVec.toNat_ofNat]
    exact Nat.mod_eq_of_lt (Nat.lt_of_lt_of_le hlt (Nat.pow_le_pow_right (by omega) hn))
  rw [elt, this, digits_foldr w f (List.range n) e (by simpa using he)]
  simp [List.getD, he]

theorem elt_lt {n : Nat} (w : Nat) (v : BitVec n) (e : Nat) : elt w v e % 2 ^ w = elt w v e := Nat.mod_mod _ _

/-- The widths of the element types divide a register. -/
theorem tWidth_cases (t : Nat) : tWidth t = 8 ∨ tWidth t = 16 ∨ tWidth t = 32 ∨ tWidth t = 64 := by
  unfold tWidth
  split
  · simp
  · split
    · simp
    · split <;> simp

theorem tWidth_fits (t : Nat) : tWidth t * (2048 / tWidth t) ≤ 2048 := Nat.mul_div_le 2048 (tWidth t)

/-! ### Registers written -/

@[simp] theorem Core.flag_fpcsr (k : Core) (f : Nat) : (k.flag f).fpcsr = k.fpcsr ||| BitVec.ofNat 64 (f % 32) := rfl
@[simp] theorem Core.stepSr_srcount (k : Core) (i : IWord) : (k.stepSr i).srcount = k.srAfter i := by
  unfold Core.stepSr Core.srAfter; split <;> rfl
theorem Core.stepSr_eq (k : Core) (i : IWord) : k.stepSr i = { k with srcount := k.srAfter i } := by
  unfold Core.stepSr Core.srAfter; split <;> rfl

theorem Core.putS_eq (k : Core) (n : Nat) (v : Word64) : k.putS n v = { k with s := (k.putS n v).s, poisonS := (k.putS n v).poisonS } := by
  unfold Core.putS; split <;> rfl
theorem Core.getS_putS (k : Core) (n m : Nat) (v : Word64) : (k.putS n v).getS m = if m = 63 then 0 else if m = n then v else k.getS m := by
  unfold Core.putS Core.getS
  by_cases hm : m = 63 <;> by_cases hn : n = 63 <;> simp [hm, hn]
theorem Core.poison_putS (k : Core) (n m : Nat) (v : Word64) : (k.putS n v).poison .s m = if m = n then none else k.poison .s m := by
  unfold Core.putS Core.poison
  by_cases hm : m = 63 <;> by_cases hn : n = 63 <;> simp [hm, hn]

theorem scalarResult_putS (k : Core) (i : IWord) (v : Word64) (fl : Nat) (pc : Word64) :
    ScalarResult k { ((k.putS (iD i) v).flag fl).stepSr i with pc := pc } i v fl pc := by
  refine ⟨?_, ?_, ?_, fun n hn => ⟨?_, ?_⟩⟩
  · rw [Core.stepSr_eq, Core.putS_eq]; rfl
  · rw [Core.stepSr_eq]; show (k.putS (iD i) v).getS (iD i) = _; simp [Core.getS_putS]
  · rw [Core.stepSr_eq]; show (k.putS (iD i) v).poison .s (iD i) = _; simp [Core.poison_putS]
  · rw [Core.stepSr_eq]; show (k.putS (iD i) v).getS n = _; rw [Core.getS_putS]; simp [hn]; unfold Core.getS; split <;> simp_all
  · rw [Core.stepSr_eq]; show (k.putS (iD i) v).poison .s n = _; simp [Core.poison_putS, hn]

theorem scalarResult_putS' (k : Core) (i : IWord) (v : Word64) (pc : Word64) :
    ScalarResult k { (k.putS (iD i) v).stepSr i with pc := pc } i v 0 pc := by
  have h := scalarResult_putS k i v 0 pc
  have e : (k.putS (iD i) v).flag 0 = k.putS (iD i) v := by simp [Core.flag]
  rwa [e] at h

theorem Core.putElts_eq (k : Core) (n w : Nat) (on : Nat → Bool) (f : Nat → Nat) :
    k.putElts n w on f = { k with w := (k.putElts n w on f).w, poisonW := (k.putElts n w on f).poisonW
                                  state := if (List.range (2048 / w)).any on then k.state ||| 0x10 else k.state } := by
  unfold Core.putElts
  split
  · rename_i h; simp only [h, ↓reduceIte]; rfl
  · rename_i h; simp only [h]; rfl

theorem Core.putElts_some (k : Core) (n w : Nat) (on : Nat → Bool) (f : Nat → Nat) (h : (List.range (2048 / w)).any on = true) :
    k.putElts n w on f = k.putW n (ofElts 2048 w (2048 / w) fun e => if on e then f e else elt w (k.getW n) e) ((List.range (2048 / w)).all on) := if_pos h
theorem Core.putElts_none (k : Core) (n w : Nat) (on : Nat → Bool) (f : Nat → Nat) (h : (List.range (2048 / w)).any on ≠ true) :
    k.putElts n w on f = k := if_neg h
theorem Core.putTile_some (k : Core) (n : Nat) (on : Nat → Bool) (f : Nat → Nat) (h : (List.range 256).any on = true) :
    k.putTile n on f = k.putT n (ofElts 8192 32 256 fun e => if on e then f e else elt 32 (k.getT n) e) ((List.range 256).all on) := if_pos h
theorem Core.putTile_none (k : Core) (n : Nat) (on : Nat → Bool) (f : Nat → Nat) (h : (List.range 256).any on ≠ true) : k.putTile n on f = k := if_neg h

/-- An element that is active makes some element active. -/
theorem any_of_on {n : Nat} {on : Nat → Bool} (h : (List.range n).any on ≠ true) (e : Nat) (he : e < n) : on e = false := by
  by_contra hc
  exact h (List.any_eq_true.mpr ⟨e, by simpa using he, by simpa using hc⟩)
theorem not_all_of_not_any {n : Nat} {on : Nat → Bool} (h : (List.range n).any on ≠ true) (h0 : 0 < n) : (List.range n).all on ≠ true := by
  intro hc
  have := any_of_on h 0 h0
  rw [List.all_eq_true.mp hc 0 (by simpa using h0)] at this
  exact Bool.noConfusion this

theorem Core.getW_putElts (k : Core) (n w : Nat) (on : Nat → Bool) (f : Nat → Nat) (hw : w * (2048 / w) ≤ 2048) (e : Nat) (he : e < 2048 / w) :
    elt w ((k.putElts n w on f).getW n) e = if on e then f e % 2 ^ w else elt w (k.getW n) e := by
  by_cases h : (List.range (2048 / w)).any on = true
  · rw [Core.putElts_some k n w on f h]
    simp only [Core.getW, Core.putW, mget_mset, ↓reduceIte]
    rw [elt_ofElts 2048 w _ _ e he hw]
    split
    · rfl
    · exact elt_lt w _ e
  · rw [Core.putElts_none k n w on f h, any_of_on h e he]; rfl

theorem Core.getW_putElts_ne (k : Core) (n m w : Nat) (on : Nat → Bool) (f : Nat → Nat) (h : m ≠ n) : (k.putElts n w on f).getW m = k.getW m := by
  by_cases h1 : (List.range (2048 / w)).any on = true
  · rw [Core.putElts_some k n w on f h1]; simp [Core.getW, Core.putW, h]
  · rw [Core.putElts_none k n w on f h1]

theorem Core.poison_putElts (k : Core) (n m w : Nat) (on : Nat → Bool) (f : Nat → Nat) (h0 : 0 < 2048 / w) :
    (k.putElts n w on f).poison .w m = if m = n ∧ (List.range (2048 / w)).all on then none else k.poison .w m := by
  by_cases h : (List.range (2048 / w)).any on = true
  · rw [Core.putElts_some k n w on f h]
    simp only [Core.poison, Core.putW]
    by_cases hall : (List.range (2048 / w)).all on = true <;> simp only [hall, and_true, and_false, ↓reduceIte, mget_mset, Bool.false_eq_true]
  · rw [Core.putElts_none k n w on f h]
    rw [if_neg fun hc => not_all_of_not_any h h0 hc.2]

theorem wideResult_putElts (k : Core) (i : IWord) (w : Nat) (on : Nat → Bool) (f : Nat → Nat) (fl : Nat) (hw : w * (2048 / w) ≤ 2048) (h0 : 0 < 2048 / w) :
    WideResult k { ((k.putElts (iD i) w on f).flag fl).stepSr i with pc := k.pc + 16 } i w on f fl := by
  refine ⟨?_, fun e he => ?_, ?_, fun n hn => ⟨?_, ?_⟩⟩
  · rw [Core.stepSr_eq, Core.putElts_eq]; rfl
  · rw [Core.stepSr_eq]; exact Core.getW_putElts k (iD i) w on f hw e he
  · rw [Core.stepSr_eq]; refine (Core.poison_putElts k (iD i) (iD i) w on f h0).trans ?_; simp
  · rw [Core.stepSr_eq]; exact Core.getW_putElts_ne k (iD i) n w on f hn
  · rw [Core.stepSr_eq]; refine (Core.poison_putElts k (iD i) n w on f h0).trans ?_; simp [hn]

theorem wideResult_putElts' (k : Core) (i : IWord) (w : Nat) (on : Nat → Bool) (f : Nat → Nat) (hw : w * (2048 / w) ≤ 2048) (h0 : 0 < 2048 / w) :
    WideResult k { (k.putElts (iD i) w on f).stepSr i with pc := k.pc + 16 } i w on f 0 := by
  have h := wideResult_putElts k i w on f 0 hw h0
  have e : (k.putElts (iD i) w on f).flag 0 = k.putElts (iD i) w on f := by simp [Core.flag]
  rwa [e] at h

theorem Core.putTile_eq (k : Core) (n : Nat) (on : Nat → Bool) (f : Nat → Nat) :
    k.putTile n on f = { k with t := (k.putTile n on f).t, poisonT := (k.putTile n on f).poisonT
                                state := if (List.range 256).any on then k.state ||| 0x20 else k.state } := by
  by_cases h : (List.range 256).any on = true
  · rw [Core.putTile_some k n on f h, if_pos h]; simp only [Core.putT]
  · rw [Core.putTile_none k n on f h, if_neg h]

theorem tileResult_putTile (k : Core) (i : IWord) (on : Nat → Bool) (f : Nat → Nat) (fl : Nat) :
    TileResult k { ((k.putTile (iD i) on f).flag fl).stepSr i with pc := k.pc + 16 } i on f fl := by
  by_cases h : (List.range 256).any on = true
  · refine ⟨?_, fun e he => ?_, ?_, fun n hn => ⟨?_, ?_⟩⟩
    · rw [Core.stepSr_eq, Core.putTile_eq]; rfl
    · rw [Core.stepSr_eq, Core.putTile_some k _ on f h]
      simp only [Core.flag, Core.getT, Core.putT, mget_mset, ↓reduceIte]
      rw [elt_ofElts 8192 32 256 _ e he (by omega)]
      split
      · rfl
      · exact elt_lt 32 _ e
    · rw [Core.stepSr_eq, Core.putTile_some k _ on f h]
      simp only [Core.flag, Core.poison, Core.putT]
      split <;> simp
    · rw [Core.stepSr_eq, Core.putTile_some k _ on f h]; simp [Core.flag, Core.getT, Core.putT, hn]
    · rw [Core.stepSr_eq, Core.putTile_some k _ on f h]
      simp only [Core.flag, Core.poison, Core.putT]
      split <;> simp [hn]
  · refine ⟨?_, fun e he => ?_, ?_, fun n hn => ⟨?_, ?_⟩⟩
    · rw [Core.stepSr_eq, Core.putTile_eq]; rfl
    · rw [Core.stepSr_eq, Core.putTile_none k _ on f h, any_of_on h e he]; rfl
    · rw [Core.stepSr_eq, Core.putTile_none k _ on f h, if_neg (not_all_of_not_any h (by omega))]; rfl
    · rw [Core.stepSr_eq, Core.putTile_none k _ on f h]; rfl
    · rw [Core.stepSr_eq, Core.putTile_none k _ on f h]; rfl

theorem Core.getP_putP (k : Core) (n m : Nat) (v : Word64) :
    (k.putP n v).getP m = if m = 0 then BitVec.allOnes 64 else if m = n then v else k.getP m := by
  unfold Core.putP Core.getP
  by_cases hm : m = 0 <;> by_cases hn : n = 0 <;> simp [hm, hn]

theorem predResult_putP (k : Core) (i : IWord) (v : Word64) (fl : Nat) :
    PredResult k { ((k.putP (iD i) v).flag fl).stepSr i with pc := k.pc + 16 } i v fl := by
  refine ⟨?_, ?_, fun n hn => ?_⟩
  · rw [Core.stepSr_eq]; unfold Core.putP; split <;> rfl
  · rw [Core.stepSr_eq]; show (k.putP (iD i) v).getP (iD i) = _; simp [Core.getP_putP]
  · rw [Core.stepSr_eq]; show (k.putP (iD i) v).getP n = _; rw [Core.getP_putP]; simp [hn]; unfold Core.getP; split <;> simp_all

end Sys2Proof.Machine
end

