-- ==== Sys2Proof/Laws/Trap.lean ====
section
/-! SUPPORT. What taking an exception outside EXL does (R125). -/
namespace Sys2Proof.Machine

/-- The text that some running core may still execute once core `c` has synchronized. -/
def Sled.keptText (x : Ctx) (d : Sled) (cs : Map Core) : List OldText :=
  d.oldText.filter fun o => decide (x.lows.foldl min (cs.foldl (fun a k => if k.2.entry.isSome then min a k.2.textSeq else a) d.textSeq) ≤ o.seq)

/-- Synchronizing a core after changing it, as one update. -/
theorem Sled.syncText_onCore (x : Ctx) (d : Sled) (c : CoreId) (f : Core → Core) :
    (d.onCore c f).syncText x c =
      { d with cores := mset d.cores c { f (d.core c) with textSeq := d.textSeq, farSeq := tableOf 16 x.marks }
               oldText := d.keptText x (mset d.cores c { f (d.core c) with textSeq := d.textSeq, farSeq := tableOf 16 x.marks }) } := by
  have h : mset (mset d.cores c (f (d.core c))) c { mget (mset d.cores c (f (d.core c))) c with textSeq := d.textSeq, farSeq := tableOf 16 x.marks } =
      mset d.cores c { f (d.core c) with textSeq := d.textSeq, farSeq := tableOf 16 x.marks } := by simp
  have e : (d.onCore c f).syncText x c =
      { d with cores := mset (mset d.cores c (f (d.core c))) c { mget (mset d.cores c (f (d.core c))) c with textSeq := d.textSeq, farSeq := tableOf 16 x.marks }
               oldText := d.keptText x (mset (mset d.cores c (f (d.core c))) c { mget (mset d.cores c (f (d.core c))) c with textSeq := d.textSeq, farSeq := tableOf 16 x.marks }) } := rfl
  rw [e, h]

/-- The parts of `TookTrap` for a sled whose core was replaced and whose old text was thinned. -/
theorem TookTrap.intro (s : State) (sl : SledId) (c : CoreId) (code level : Nat) (ea epc : Word64) (k : Core) (old : List OldText)
    (hk : k = { s.core sl c with epc := epc, ecause := BitVec.ofNat 64 (code + 256 * level), eaddr := ea, estate := (s.core sl c).state
                                 state := (s.core sl c).state ||| 7, textSeq := (s.sled sl).textSeq, farSeq := tableOf 16 (s.ctx sl).marks
                                 pc := if bit (s.core sl c).state 0 then (s.core sl c).tvec + 0x100 else (s.core sl c).tvec }) :
    TookTrap s (s.setSled sl { s.sled sl with cores := mset (s.sled sl).cores c k, oldText := old }) sl c code level ea epc := by
  refine ⟨?_, ⟨_, _, rfl⟩, fun e he => ?_, fun x off => ?_⟩
  · rw [State.core, State.sled_setSled_self]
    show mget (mset (s.sled sl).cores c k) c = _
    rw [mget_mset, if_pos rfl, hk]
  · rw [State.core, State.sled_setSled_self]
    show mget (mset (s.sled sl).cores c k) e = _
    rw [mget_mset, if_neg (Fin.val_ne_of_ne he)]; rfl
  · rw [State.sled_setSled]
    split
    · next h => subst h; exact congrFun (Sled.byte_congr rfl rfl rfl rfl rfl rfl) off
    · rfl

/-- An exception outside EXL, with nothing in flight, enters the handler. -/
theorem State.trap_took (s0 s : State) (sl : SledId) (c : CoreId) (code level : Nat) (ea : Word64) (after : Bool)
    (hf : (s.core sl c).flights = []) (hx : bit (s.core sl c).state 1 = false) :
    TookTrap s (State.trap s0 s sl c code level ea after) sl c code level ea (if after then (s.core sl c).pc + 16 else (s.core sl c).pc) := by
  have hx' : bit ((s.sled sl).core c).state 1 = false := hx
  have h1 : State.trap s0 s sl c code level ea after = s.setSled sl (((s.sled sl).onCore c fun k => k.enterTrap code level ea after).syncText (s.ctx sl) c) := by
    unfold State.trap Sled.takeTrap
    rw [if_neg (by simp [hf]), hx', if_neg (by decide)]
  rw [h1, Sled.syncText_onCore]
  apply TookTrap.intro
  have hp : (s.core sl c).tvec + (if bit (s.core sl c).state 0 then 0x100 else 0) = if bit (s.core sl c).state 0 then (s.core sl c).tvec + 0x100 else (s.core sl c).tvec := by
    split
    · rfl
    · exact BitVec.add_zero _
  rw [← hp]
  rfl

/-- With operations in flight an exception waits. -/
theorem State.trap_waits (s0 s : State) (sl : SledId) (c : CoreId) (code level : Nat) (ea : Word64) (after : Bool)
    (hf : (s.core sl c).flights ≠ []) : State.trap s0 s sl c code level ea after = s0 := if_pos hf

end Sys2Proof.Machine
end

