-- ==== Sys2Proof/WellFormed.lean ====
section
/-! DEFINITION. Which commands are well formed: the operands that a type alone does not bound. -/
namespace Sys2Proof

/-- The frame bytes a Courier frame may carry (Table 14.1). -/
def CourierFrame.wf (f : CourierFrame) : Bool := decide (f.payload.length ≤ 32)

/-- The operands are in range for the line, link or port they name. -/
def Instr.wf : Instr → Bool
  | .ping _ f | .pong _ f | .courierEvent _ f | .courierAck _ f => f.wf
  | .tetherLaneLoss _ lanes | .tetherTrainingDone _ lanes => decide (lanes ≤ 16)
  | _ => true

end Sys2Proof
end

