-- ==== Sys2Proof/Tests/Slice0.lean ====
section
/-! SUPPORT. The model's own tests: the well-formedness checks, words and values of the spec's tables, and for every statement with hypotheses a state that meets them. -/
namespace Sys2Proof.Tests
open Sys2Proof Sys2Proof.Machine

set_option Elab.async false

/-! ### Well-formed commands -/

theorem test_wf_refuses_a_long_courier_payload : Instr.wf (.ping (.sled 0) ⟨1, 0, 1, 0, List.replicate 33 0⟩) = false := by decide
theorem test_wf_takes_a_full_courier_payload : Instr.wf (.ping (.sled 0) ⟨1, 0, 1, 0, List.replicate 32 0⟩) = true := by decide
theorem test_wf_refuses_seventeen_lanes : Instr.wf (.tetherLaneLoss 0 17) = false := by decide
theorem test_wf_refuses_a_training_of_seventeen_lanes : Instr.wf (.tetherTrainingDone 0 17) = false := by decide

/-! ### Words -/

/-- An instruction word from its fields (Table 4.2). -/
def asm (op fn d a b c t m imm : Nat) : IWord :=
  BitVec.ofNat 128 (op + fn * 2 ^ 8 + d * 2 ^ 16 + a * 2 ^ 22 + b * 2 ^ 28 + c * 2 ^ 34 + t * 2 ^ 45 + m * 2 ^ 48 + imm * 2 ^ 64)

/-- Table 5.19: the words of MMA, TESUBMIT and ADD. -/
theorem test_word_mma : (specOf 0x0004A00051020018).map ISpec.mn = some .mma ∧ iD 0x0004A00051020018 = 2 ∧ iA 0x0004A00051020018 = 4 ∧ iB 0x0004A00051020018 = 5 ∧ iT 0x0004A00051020018 = 5 := by decide +kernel
theorem test_word_tesubmit : (specOf 0x000000000000050200000000B2830029).map ISpec.mn = some .tesubmit ∧ iD 0x000000000000050200000000B2830029 = 3 ∧
    iA 0x000000000000050200000000B2830029 = 10 ∧ iB 0x000000000000050200000000B2830029 = 11 ∧ iImm 0x000000000000050200000000B2830029 = 0x502 := by decide +kernel
theorem test_word_add : (specOf 0x00000000000000100000130000418001).map ISpec.mn = some .add ∧ iI 0x00000000000000100000130000418001 = true ∧
    iP 0x00000000000000100000130000418001 = 3 ∧ iPn 0x00000000000000100000130000418001 = true ∧ iImm 0x00000000000000100000130000418001 = 0x10 := by decide +kernel

/-- Table 4.13: FP32 to FP8, round to nearest even; 300, 470, 1000000, −∞ and a NaN. -/
theorem test_fp8_e4m3 : [0x43960000, 0x43EB0000, 0x49742400, 0xFF800000, 0x7FC00000].map (fun v => ((convert 3 6 false false .near v).bits, (convert 3 6 false true .near v).bits)) =
    [(0x79, 0x79), (0x7F, 0x7E), (0x7F, 0x7E), (0x7F, 0xFE), (0x7F, 0x7F)] := by decide +kernel
theorem test_fp8_e5m2 : [0x43960000, 0x43EB0000, 0x49742400, 0xFF800000, 0x7FC00000].map (fun v => ((convert 3 7 false false .near v).bits, (convert 3 7 false true .near v).bits)) =
    [(0x5D, 0x5D), (0x5F, 0x5F), (0x7C, 0x7B), (0xFC, 0xFC), (0x7E, 0x7E)] := by decide +kernel

/-! ### A core with its text, its tables and its data in the caches -/

/-- A core that runs the thread of entry 0 in kernel mode, at 0x40000, with s1 at the data and s2 a value. -/
def core0 : Core := { entry := some 0, state := 1, pc := 0x40000, s := [(1, 0x40000050000), (2, 0x55AA)] }

/-- A sled with that core, a page of text at VA 0 and one of data at VA 2^42, and the lines they take in its caches. -/
def sled0 (i : IWord) (k : Core) (work : Bool) : Sled :=
  { bell := { work := work }, cores := [(0, k)], slices := [(0, { entries := [(0, { st := .running, gen := 1, tcb := 0x60000, ctx := 0x61000 })] })], tenants := [(0, { root := 0x10001 })]
    cache := [(1024, some { data := 0x20001#512 + (0x30001#512 <<< 64) }), (2048, some { data := 0x1B }), (3072, some { data := 0x13 }),
              (4096, some { data := i.zeroExtend 512 }), (5120, some { data := 0x1122334455667788 })] }

/-- The rack with that sled in slot 0. -/
def state0 (i : IWord) (k : Core := core0) (work : Bool := false) : State := { sleds := [(0, sled0 i k work)] }

/-- The surroundings of sled 0 on an idle rack. -/
def ctx0 : Ctx := State.ctx {} 0

/-- A pair from its second part. -/
theorem pair_of {α β : Type} {x : α × β} {b : β} (h : x.2 = b) : x = (x.1, b) := by
  cases x
  simp_all

/-- What `Issues` asks, as a computation. -/
def issuesB (s : State) (mn : Mn) (i : IWord) : Bool :=
  let s1 := (s.fetch 0 0).1
  (s.sled 0).mayIssue 0 && decide ((s.fetch 0 0).2 = .word i) && match specOf i with
    | some sp => decide (sp.mn = mn) && legal sp i && (!needsKernel sp i || bit (s1.core 0 0).state 0) &&
        (decide (sp.pred ≠ .scalar) || bit ((s1.core 0 0).pred i) 0) && !(s1.core 0 0).busy sp i && decide ((s1.core 0 0).poisoned sp i = none)
    | none => false

theorem issues_of {s : State} {mn : Mn} {i : IWord} (h : issuesB s mn i = true) : Issues s 0 0 mn i (s.fetch 0 0).1 := by
  unfold issuesB at h
  cases hs : specOf i with
  | none => simp [hs] at h
  | some sp =>
    simp only [hs, Bool.and_eq_true, Bool.or_eq_true, Bool.not_eq_true', decide_eq_true_eq] at h
    obtain ⟨⟨h1, h2⟩, ⟨⟨⟨⟨h3, h4⟩, h5⟩, h6⟩, h7⟩, h8⟩ := h
    exact ⟨h1, Prod.ext rfl h2, sp, hs, h3, h4, fun hn => h5.resolve_left (by simp [hn]), fun hp => h6.resolve_left (by simp [hp]), h7, h8⟩

/-! ### Witnesses: the Xehal core -/

theorem witness_exec_answers_next : ∃ (c : Instr) (s t : State), exec c s = .next t := ⟨.bypass 0, State.reset, _, rfl⟩

theorem witness_IntegerScalarResult : ∃ (s s1 : State) (i : IWord), Issues s 0 0 .add i s1 ∧ (∃ f, ((.add 0 0 : Instr), Mn.add, f) ∈ intRows 0 0) ∧ iOp i = 1 :=
  ⟨state0 (asm 1 0 3 1 2 0 1 0 0) core0, _, asm 1 0 3 1 2 0 1 0 0, issues_of (by decide +kernel), ⟨_, List.Mem.head _⟩, by decide +kernel⟩

theorem witness_IntegerWideResult : ∃ (s s1 : State) (i : IWord), Issues s 0 0 .add i s1 ∧ (∃ f, ((.add 0 0 : Instr), Mn.add, f) ∈ intRows 0 0) ∧ iOp i = 0x10 :=
  ⟨state0 (asm 0x10 0 3 1 2 0 1 0 0) core0, _, asm 0x10 0 3 1 2 0 1 0 0, issues_of (by decide +kernel), ⟨_, List.Mem.head _⟩, by decide +kernel⟩

theorem witness_FloatResult_scalar : ∃ (s s1 : State) (i : IWord), Issues s 0 0 .fadd i s1 ∧ (∃ f, ((.fadd 0 0 : Instr), Mn.fadd, f) ∈ fpRows 0 0) ∧ iOp i = 2 :=
  ⟨state0 (asm 2 0 3 1 2 0 3 0 0) core0, _, asm 2 0 3 1 2 0 3 0 0, issues_of (by decide +kernel), ⟨_, List.Mem.head _⟩, by decide +kernel⟩

theorem witness_FloatResult_wide : ∃ (s s1 : State) (i : IWord), Issues s 0 0 .fadd i s1 ∧ (∃ f, ((.fadd 0 0 : Instr), Mn.fadd, f) ∈ fpRows 0 0) ∧ iOp i = 0x11 :=
  ⟨state0 (asm 0x11 0 3 1 2 0 3 0 0) core0, _, asm 0x11 0 3 1 2 0 3 0 0, issues_of (by decide +kernel), ⟨_, List.Mem.head _⟩, by decide +kernel⟩

theorem witness_ScalarMoveResult : ∃ (s s1 : State) (i : IWord), Issues s 0 0 .movi i s1 ∧ ∃ v fl, ((.movi 0 0 : Instr), Mn.movi, v, fl) ∈ scalarMoveRows 0 0 (s1.core 0 0) i :=
  ⟨state0 (asm 3 0 3 0 0 0 0 0 7) core0, _, asm 3 0 3 0 0 0 0 0 7, issues_of (by decide +kernel), ⟨_, _, List.Mem.head _⟩⟩

theorem witness_WideMoveResult : ∃ (s s1 : State) (i : IWord), Issues s 0 0 .wbcast i s1 ∧ ∃ w on f, ((.wbcast 0 0 : Instr), Mn.wbcast, w, on, f) ∈ wideMoveRows 0 0 (s1.core 0 0) i :=
  ⟨state0 (asm 3 1 3 1 0 0 0 0 0) core0, _, asm 3 1 3 1 0 0 0 0 0, issues_of (by decide +kernel), ⟨_, _, _, List.Mem.head _⟩⟩

theorem witness_ConversionsTakeTheirElements : ∃ (s s1 : State) (i : IWord), Issues s 0 0 .cvt i s1 ∧ iT i = 6 :=
  ⟨state0 (asm 0x13 0 3 1 0 0 6 0 3) core0, _, asm 0x13 0 3 1 0 0 6 0 3, issues_of (by decide +kernel), by decide +kernel⟩

theorem witness_CompareResult : ∃ (s s1 : State) (i : IWord), Issues s 0 0 .ceq i s1 ∧ ((.ceq 0 0 : Instr), Mn.ceq, 0) ∈ [((.ceq 0 0 : Instr), Mn.ceq, 0)] :=
  ⟨state0 (asm 0x12 0 1 1 2 0 0 0 0) core0, _, asm 0x12 0 1 1 2 0 0 0 0, issues_of (by decide +kernel), List.Mem.head _⟩

theorem witness_PredicateLogicResult : ∃ (s s1 : State) (i : IWord), Issues s 0 0 .pand i s1 ∧ iD i = 1 :=
  ⟨state0 (asm 0x12 0x10 1 1 2 0 0 0 0) core0, _, asm 0x12 0x10 1 1 2 0 0 0 0, issues_of (by decide +kernel), by decide +kernel⟩

theorem witness_MatrixResult : ∃ (s s1 : State) (i : IWord), Issues s 0 0 .mma i s1 ∧ iT i = 4 :=
  ⟨state0 (asm 0x18 0 1 1 2 0 4 0 0) core0, _, asm 0x18 0 1 1 2 0 4 0 0, issues_of (by decide +kernel), by decide +kernel⟩

theorem witness_TileMoveResult : ∃ (s s1 : State) (i : IWord), Issues s 0 0 .tzero i s1 ∧ iT i = 3 :=
  ⟨state0 (asm 0x18 8 1 0 0 0 3 0 0) core0, _, asm 0x18 8 1 0 0 0 3 0 0, issues_of (by decide +kernel), by decide +kernel⟩

theorem witness_BranchesGoToTheirTarget_taken : ∃ (s s1 : State) (i : IWord), Issues s 0 0 .br i s1 ∧ ((.br 0 0 : Instr), Mn.br, true, iImm i) ∈ branchRows 0 0 (s1.core 0 0) i ∧ (iImm i).toNat % 16 = 0 :=
  ⟨state0 (asm 4 0 0 0 0 0 0 0 0x80) core0, _, asm 4 0 0 0 0 0 0 0 0x80, issues_of (by decide +kernel), List.Mem.head _, by decide +kernel⟩

theorem witness_BranchesGoToTheirTarget_not_taken : ∃ (s s1 : State) (i : IWord), Issues s 0 0 .beq i s1 ∧ (s1.core 0 0).getS (iA i) ≠ (s1.core 0 0).getS (iB i) :=
  ⟨state0 (asm 4 8 0 1 2 0 0 0 0x81) core0, _, asm 4 8 0 1 2 0 0 0 0x81, issues_of (by decide +kernel), by decide +kernel⟩

theorem witness_CallsLinkTheNextWord : ∃ (s s1 : State) (i : IWord), Issues s 0 0 .call i s1 ∧ (iImm i).toNat % 16 = 0 :=
  ⟨state0 (asm 4 2 3 0 0 0 0 0 0x80) core0, _, asm 4 2 3 0 0 0 0 0 0x80, issues_of (by decide +kernel), by decide +kernel⟩

theorem witness_ControlRegistersRead : ∃ (s s1 : State) (i : IWord), Issues s 0 0 .crrd i s1 ∧ (iImm i).toNat = 0x24 :=
  ⟨state0 (asm 0x30 1 3 0 0 0 0 0 0x24) core0, _, asm 0x30 1 3 0 0 0 0 0 0x24, issues_of (by decide +kernel), by decide +kernel⟩

theorem witness_ControlRegistersWritten : ∃ (s s1 : State) (i : IWord), Issues s 0 0 .crwr i s1 ∧ (iImm i).toNat = 0x12 :=
  ⟨state0 (asm 0x30 2 0 2 0 0 0 0 0x12) core0, _, asm 0x30 2 0 2 0 0 0 0 0x12, issues_of (by decide +kernel), by decide +kernel⟩

theorem witness_TrapAndBreakEnterTheHandler : ∃ (s s1 : State) (i : IWord), Issues s 0 0 .trap i s1 ∧ (s1.core 0 0).flights = [] ∧ bit (s1.core 0 0).state 1 = false :=
  ⟨state0 (asm 0x30 3 0 0 0 0 0 0 9) core0, _, asm 0x30 3 0 0 0 0 0 0 9, issues_of (by decide +kernel), by decide +kernel⟩

theorem witness_ExceptionUnderExlEndsTheThread : ∃ (s s1 : State) (i : IWord), Issues s 0 0 .trap i s1 ∧ (s1.core 0 0).flights = [] ∧ bit (s1.core 0 0).state 1 = true ∧ (s1.core 0 0).entry = some 0 :=
  ⟨state0 (asm 0x30 3 0 0 0 0 0 0 9) { core0 with state := 3 }, _, asm 0x30 3 0 0 0 0 0 0 9, issues_of (by decide +kernel), by decide +kernel⟩

theorem witness_TretReturns_aligned : ∃ (s s1 : State) (i : IWord), Issues s 0 0 .tret i s1 ∧ (s1.core 0 0).epc.toNat % 16 = 0 :=
  ⟨state0 (asm 0x30 5 0 0 0 0 0 0 0) { core0 with epc := 0x40010 }, _, asm 0x30 5 0 0 0 0 0 0 0, issues_of (by decide +kernel), by decide +kernel⟩

theorem witness_TretReturns_misaligned : ∃ (s s1 : State) (i : IWord), Issues s 0 0 .tret i s1 ∧ (s1.core 0 0).epc.toNat % 16 ≠ 0 ∧ (s1.core 0 0).flights = [] ∧ bit (s1.core 0 0).state 1 = false :=
  ⟨state0 (asm 0x30 5 0 0 0 0 0 0 0) { core0 with epc := 0x4001F }, _, asm 0x30 5 0 0 0 0 0 0 0, issues_of (by decide +kernel), by decide +kernel⟩

theorem witness_TretReturns_misaligned_under_exl : ∃ (s s1 : State) (i : IWord), Issues s 0 0 .tret i s1 ∧ (s1.core 0 0).epc.toNat % 16 ≠ 0 ∧ (s1.core 0 0).flights = [] ∧ bit (s1.core 0 0).state 1 = true ∧ (s1.core 0 0).entry = some 0 :=
  ⟨state0 (asm 0x30 5 0 0 0 0 0 0 0) { core0 with state := 3, epc := 0x40011 }, _, asm 0x30 5 0 0 0 0 0 0 0, issues_of (by decide +kernel), by decide +kernel⟩

theorem witness_MisalignedTargetsRaiseAlign : ∃ (s s1 : State) (i : IWord), Issues s 0 0 .br i s1 ∧ (iImm i).toNat % 16 ≠ 0 ∧ (s1.core 0 0).flights = [] ∧ bit (s1.core 0 0).state 1 = false :=
  ⟨state0 (asm 4 0 0 0 0 0 0 0 0x88) core0, _, asm 4 0 0 0 0 0 0 0 0x88, issues_of (by decide +kernel), by decide +kernel⟩

theorem witness_ReservedWordsAndFetchFaultsTrap_word : ∃ (s s1 : State) (i : IWord), (s.sled 0).mayIssue 0 = true ∧ (s1.core 0 0).flights = [] ∧ bit (s1.core 0 0).state 1 = false ∧
    s.fetch 0 0 = (s1, .word i) ∧ specOf i = none :=
  ⟨state0 (asm 0x3F 0 0 0 0 0 0 0 0), _, asm 0x3F 0 0 0 0 0 0 0 0, by decide +kernel, by decide +kernel, by decide +kernel, pair_of (by decide +kernel), by decide +kernel⟩

theorem witness_ReservedWordsAndFetchFaultsTrap_fault : ∃ (s s1 : State) (f : TFault), (s.sled 0).mayIssue 0 = true ∧ (s1.core 0 0).flights = [] ∧ bit (s1.core 0 0).state 1 = false ∧
    s.fetch 0 0 = (s1, .fault f) :=
  ⟨state0 0 { core0 with pc := 0x80000000000000 }, _, ⟨1, 0x80000000000000, 0, 1, 0⟩, by decide +kernel, by decide +kernel, by decide +kernel, pair_of (by decide +kernel)⟩

theorem witness_ChecksPrecedeEveryInstruction_illegal : ∃ (s s1 : State) (i : IWord) (sp : ISpec), ((.add 0 0 : Instr), Mn.add) ∈ xehalRows 0 0 ∧ (s.sled 0).mayIssue 0 = true ∧
    s.fetch 0 0 = (s1, .word i) ∧ specOf i = some sp ∧ legal sp i = false ∧ (s1.core 0 0).flights = [] ∧ bit (s1.core 0 0).state 1 = false :=
  ⟨state0 (asm 1 0 3 1 2 0 3 0 0) core0, _, asm 1 0 3 1 2 0 3 0 0, (specOf (asm 1 0 3 1 2 0 3 0 0)).get (by decide +kernel), List.Mem.head _, by decide +kernel, pair_of (by decide +kernel), by decide +kernel, by decide +kernel⟩

theorem witness_ChecksPrecedeEveryInstruction_privilege : ∃ (s s1 : State) (i : IWord) (sp : ISpec), ((.add 0 0 : Instr), Mn.add) ∈ xehalRows 0 0 ∧ (s.sled 0).mayIssue 0 = true ∧
    s.fetch 0 0 = (s1, .word i) ∧ specOf i = some sp ∧ legal sp i = true ∧ needsKernel sp i = true ∧ bit (s1.core 0 0).state 0 = false :=
  ⟨state0 (asm 0x30 5 0 0 0 0 0 0 0) { core0 with state := 0 }, _, asm 0x30 5 0 0 0 0 0 0 0, (specOf (asm 0x30 5 0 0 0 0 0 0 0)).get (by decide +kernel), List.Mem.head _, by decide +kernel, pair_of (by decide +kernel), by decide +kernel, by decide +kernel⟩

theorem witness_ChecksPrecedeEveryInstruction_predicate : ∃ (s s1 : State) (i : IWord) (sp : ISpec), ((.add 0 0 : Instr), Mn.add) ∈ xehalRows 0 0 ∧ (s.sled 0).mayIssue 0 = true ∧
    s.fetch 0 0 = (s1, .word i) ∧ specOf i = some sp ∧ legal sp i = true ∧ needsKernel sp i = false ∧ sp.pred = .scalar ∧ bit ((s1.core 0 0).pred i) 0 = false :=
  ⟨state0 (asm 1 0 3 1 2 0 1 0 0 ||| (1 <<< 44)) core0, _, asm 1 0 3 1 2 0 1 0 0 ||| (1 <<< 44), (specOf (asm 1 0 3 1 2 0 1 0 0 ||| (1 <<< 44))).get (by decide +kernel), List.Mem.head _, by decide +kernel, pair_of (by decide +kernel), by decide +kernel, by decide +kernel⟩

theorem witness_ChecksPrecedeEveryInstruction_busy : ∃ (s s1 : State) (i : IWord) (sp : ISpec), ((.add 0 0 : Instr), Mn.add) ∈ xehalRows 0 0 ∧ (s.sled 0).mayIssue 0 = true ∧
    s.fetch 0 0 = (s1, .word i) ∧ specOf i = some sp ∧ legal sp i = true ∧ needsKernel sp i = false ∧ bit ((s1.core 0 0).pred i) 0 = true ∧ (s1.core 0 0).busy sp i = true :=
  ⟨state0 (asm 1 0 3 1 2 0 1 0 0) { core0 with flights := [{ dst := .s 2 }] }, _, asm 1 0 3 1 2 0 1 0 0, (specOf (asm 1 0 3 1 2 0 1 0 0)).get (by decide +kernel), List.Mem.head _, by decide +kernel, pair_of (by decide +kernel), by decide +kernel, by decide +kernel⟩

theorem witness_ChecksPrecedeEveryInstruction_poison : ∃ (s s1 : State) (i : IWord) (sp : ISpec), ((.add 0 0 : Instr), Mn.add) ∈ xehalRows 0 0 ∧ (s.sled 0).mayIssue 0 = true ∧
    s.fetch 0 0 = (s1, .word i) ∧ specOf i = some sp ∧ legal sp i = true ∧ needsKernel sp i = false ∧ bit ((s1.core 0 0).pred i) 0 = true ∧ (s1.core 0 0).busy sp i = false ∧ (s1.core 0 0).poisoned sp i = some 0x88 :=
  ⟨state0 (asm 1 0 3 1 2 0 1 0 0) { core0 with poisonS := [(2, some 0x88)] }, _, asm 1 0 3 1 2 0 1 0 0, (specOf (asm 1 0 3 1 2 0 1 0 0)).get (by decide +kernel), List.Mem.head _, by decide +kernel, pair_of (by decide +kernel), by decide +kernel, by decide +kernel⟩

theorem witness_ScalarLoadReadsItsBytes : ∃ (s s1 : State) (i : IWord), Issues s 0 0 .ld i s1 ∧ ∃ (d : Sled) (p : Piece) (off : Nat),
      (s1.sled 0).plan (s1.ctx 0) 0 .load 8 none (scalarSpan (s1.core 0 0) i false) = (d, .inl [p]) ∧ d.target (s1.ctx 0) p.pa = .mem off ∧ p.pos = 0 ∧ p.len = 8 ∧
      (s1.setSled 0 d).accessWaits 0 0 [p] = false :=
  ⟨state0 (asm 8 0 3 1 0 0 0 0 0) core0, _, asm 8 0 3 1 0 0 0 0 0, issues_of (by decide +kernel), _, ⟨0x50000, 0, 8, 0x40000050000⟩, 0x50000, pair_of (by decide +kernel), by decide +kernel, rfl, rfl, by decide +kernel⟩

theorem witness_WideLoadsReadTheirPieces : ∃ (s s1 : State) (i : IWord), Issues s 0 0 .wld i s1 ∧ ∃ (d : Sled) (ps : List Piece), let spans := runSpans ((s1.core 0 0).address i false) 8 32 (elemOn ((s1.core 0 0).pred i) 64)
      spans ≠ [] ∧ (s1.sled 0).plan (s1.ctx 0) 0 .load 8 (some 6) spans = (d, .inl ps) ∧ (s1.setSled 0 d).accessWaits 0 0 ps = false :=
  ⟨state0 (asm 0x14 0 3 1 0 0 0 0 0) core0, _, asm 0x14 0 3 1 0 0 0 0 0, issues_of (by decide +kernel), _, [⟨0x50000, 0, 256, 0x40000050000⟩], by decide +kernel, pair_of (by decide +kernel), by decide +kernel⟩

theorem witness_LoadCompletionWritesItsRegister_scalar : ∃ (s : State) (f : Flight), (s.sled 0).ended = false ∧ (s.core 0 0).flight 0 = some f ∧ f.asks = [] ∧ f.dst = .s 3 :=
  ⟨state0 0 { core0 with flights := [{ dst := .s 3, size := 8 }] }, { dst := .s 3, size := 8 }, by decide +kernel, by decide +kernel, rfl, rfl⟩

theorem witness_LoadCompletionWritesItsRegister_wide : ∃ (s : State) (f : Flight), (s.sled 0).ended = false ∧ (s.core 0 0).flight 0 = some f ∧ f.asks = [] ∧ f.dst = .w 3 :=
  ⟨state0 0 { core0 with flights := [{ dst := .w 3, size := 8 }] }, { dst := .w 3, size := 8 }, by decide +kernel, by decide +kernel, rfl, rfl⟩

theorem witness_LoadCompletionWritesItsRegister_tile : ∃ (s : State) (f : Flight), (s.sled 0).ended = false ∧ (s.core 0 0).flight 0 = some f ∧ f.asks = [] ∧ f.dst = .t 3 :=
  ⟨state0 0 { core0 with flights := [{ dst := .t 3, size := 8 }] }, { dst := .t 3, size := 8 }, by decide +kernel, by decide +kernel, rfl, rfl⟩

theorem witness_LoadCompletionWritesItsRegister_discarded : ∃ (s : State) (f : Flight), (s.sled 0).ended = false ∧ (s.core 0 0).flight 0 = some f ∧ f.asks = [] ∧ f.dst = .none :=
  ⟨state0 0 { core0 with flights := [{ dst := .none, size := 8 }] }, { dst := .none, size := 8 }, by decide +kernel, by decide +kernel, rfl, rfl⟩

theorem witness_FaultingAccessesTrap : ∃ (s s1 : State) (i : IWord), Issues s 0 0 .ld i s1 ∧ ∃ (d : Sled) (f : TFault), (s1.sled 0).plan (s1.ctx 0) 0 .load 8 none (scalarSpan (s1.core 0 0) i false) = (d, .inr f) ∧
      ((s1.setSled 0 (d.noteWalk 0 f)).core 0 0).flights = [] ∧ bit ((s1.setSled 0 (d.noteWalk 0 f)).core 0 0).state 1 = false :=
  ⟨state0 (asm 8 0 3 1 0 0 0 0 1) core0, _, asm 8 0 3 1 0 0 0 0 1, issues_of (by decide +kernel), _, { code := 6, va := 0x40000050001 }, pair_of (by decide +kernel), by decide +kernel, by decide +kernel⟩

theorem witness_StoresWriteOnlyTheirBytes : ∃ (s s1 : State) (i : IWord), Issues s 0 0 .st i s1 ∧ ∃ (d : Sled) (ps : List Piece) (offs : Piece → Nat) (row : _), row ∈ storeRows 0 0 (s1.core 0 0) i ∧ row.2.1 = Mn.st ∧ row.2.2.2.2.2 ≠ [] ∧
      (s1.sled 0).plan (s1.ctx 0) 0 .store row.2.2.2.1 row.2.2.2.2.1 row.2.2.2.2.2 = (d, .inl ps) ∧ (s1.setSled 0 d).accessWaits 0 0 ps = false ∧ (s1.core 0 0).flights = [] ∧
      ∀ p ∈ ps, d.target (s1.ctx 0) p.pa = .mem (offs p) :=
  ⟨state0 (asm 8 1 0 1 2 0 0 0 0) core0, _, asm 8 1 0 1 2 0 0 0 0, issues_of (by decide +kernel), _, [⟨0x50000, 0, 8, 0x40000050000⟩], fun p => p.pa, _, List.Mem.head _, rfl, by decide +kernel, pair_of (by decide +kernel), by decide +kernel, by decide +kernel, by decide +kernel⟩

theorem witness_ScalarStoreLeavesItsValue : ∃ (s s1 : State) (i : IWord), Issues s 0 0 .st i s1 ∧ ∃ (d : Sled) (p : Piece) (off : Nat),
      (s1.sled 0).plan (s1.ctx 0) 0 .store 1 (some 6) (scalarSpan (s1.core 0 0) i false) = (d, .inl [p]) ∧ d.target (s1.ctx 0) p.pa = .mem off ∧ p.pos = 0 ∧ p.len = tWidth (iT i) / 8 ∧
      (s1.setSled 0 d).accessWaits 0 0 [p] = false ∧ (s1.core 0 0).flights = [] :=
  ⟨state0 (asm 8 1 0 1 2 0 2 0 8) core0, _, asm 8 1 0 1 2 0 2 0 8, issues_of (by decide +kernel), _, ⟨0x50008, 0, 1, 0x40000050008⟩, 0x50008, pair_of (by decide +kernel), by decide +kernel, rfl, by decide +kernel, by decide +kernel, by decide +kernel⟩

theorem witness_AtomicsReplaceTheirWord : ∃ (s s1 : State) (i : IWord), Issues s 0 0 .amoadd i s1 ∧ ∃ (d : Sled) (p : Piece) (off : Nat),
      (s1.sled 0).plan (s1.ctx 0) 0 .store 8 (some 2) (scalarSpan (s1.core 0 0) i false) = (d, .inl [p]) ∧ d.target (s1.ctx 0) p.pa = .mem off ∧ p.pos = 0 ∧ p.len = 8 ∧
      (s1.setSled 0 d).accessWaits 0 0 [p] = false ∧ (s1.core 0 0).flights = [] ∧ ∀ j, j < 8 → d.badByte (off + j) = false :=
  ⟨state0 (asm 9 1 3 1 2 0 0 0 0) core0, _, asm 9 1 3 1 2 0 0 0 0, issues_of (by decide +kernel), _, ⟨0x50000, 0, 8, 0x40000050000⟩, 0x50000, pair_of (by decide +kernel), by decide +kernel, rfl, rfl, by decide +kernel, by decide +kernel, by decide +kernel⟩

theorem witness_FencesWaitForOtherSleds_wait : ∃ (s s1 : State) (i : IWord), Issues s 0 0 .fence i s1 ∧ ((s1.core 0 0).flights.any fun f => decide (f.asks ≠ [])) = true :=
  ⟨state0 (asm 0x20 0 0 0 0 0 0 0 0) { core0 with flights := [{ dst := .s 3, asks := [(0, 0)] }] }, _, asm 0x20 0 0 0 0 0 0 0 0, issues_of (by decide +kernel), by decide +kernel⟩

theorem witness_FencesWaitForOtherSleds_go : ∃ (s s1 : State) (i : IWord), Issues s 0 0 .ifence i s1 ∧ ((s1.core 0 0).flights.any fun f => decide (f.asks ≠ [])) = false :=
  ⟨state0 (asm 0x20 1 0 0 0 0 0 0 0) core0, _, asm 0x20 1 0 0 0 0 0 0 0, issues_of (by decide +kernel), by decide +kernel⟩

theorem witness_CacheOperationsGoOn_cflush : ∃ (s s1 : State) (i : IWord), Issues s 0 0 .cflush i s1 ∧ True :=
  ⟨state0 (asm 0x20 2 0 1 2 0 0 0 0) core0, _, asm 0x20 2 0 1 2 0 0 0 0, issues_of (by decide +kernel), trivial⟩

theorem witness_CacheOperationsGoOn_cinval : ∃ (s s1 : State) (i : IWord), Issues s 0 0 .cinval i s1 ∧ True :=
  ⟨state0 (asm 0x20 3 0 1 2 0 0 0 0) core0, _, asm 0x20 3 0 1 2 0 0 0 0, issues_of (by decide +kernel), trivial⟩

theorem witness_CacheOperationsGoOn_pref : ∃ (s s1 : State) (i : IWord), Issues s 0 0 .pref i s1 ∧ (s1.sled 0).convs = [] :=
  ⟨state0 (asm 8 4 0 1 0 0 0 0 0) core0, _, asm 8 4 0 1 0 0 0 0 0, issues_of (by decide +kernel), by decide +kernel⟩

theorem witness_WaitworkParksOrEnds_goes_on : ∃ (s s1 : State) (i : IWord), Issues s 0 0 .waitwork i s1 ∧ (s1.core 0 0).entry = some 0 ∧ bit (iImm i) 8 = true ∧ (s1.core 0 0).flights = [] :=
  ⟨state0 (asm 0x28 0 0 0 0 0 0 0 0x100) core0, _, asm 0x28 0 0 0 0 0 0 0 0x100, issues_of (by decide +kernel), by decide +kernel⟩

theorem witness_WaitworkParksOrEnds_waits : ∃ (s s1 : State) (i : IWord), Issues s 0 0 .waitwork i s1 ∧ (s1.core 0 0).entry = some 0 ∧ (s1.core 0 0).flights ≠ [] :=
  ⟨state0 (asm 0x28 0 0 0 0 0 0 0 0) { core0 with flights := [{ dst := .s 3 }] }, _, asm 0x28 0 0 0 0 0 0 0 0, issues_of (by decide +kernel), by decide +kernel⟩

theorem witness_YieldAndBellwait_yield : ∃ (s s1 : State) (i : IWord), Issues s 0 0 .yield i s1 ∧ (s1.core 0 0).entry = some 0 ∧ (s1.core 0 0).flights = [] :=
  ⟨state0 (asm 0x28 2 0 0 0 0 0 0 0) core0, _, asm 0x28 2 0 0 0 0 0 0 0, issues_of (by decide +kernel), by decide +kernel⟩

theorem witness_YieldAndBellwait_bellwait_blocks : ∃ (s s1 : State) (i : IWord), Issues s 0 0 .bellwait i s1 ∧ (s1.core 0 0).entry = some 0 ∧ (s1.core 0 0).flights = [] ∧ (s1.sled 0).count.toNat < ((s1.core 0 0).getS (iA i) + iImm i).toNat :=
  ⟨state0 (asm 0x28 3 0 2 0 0 0 0 0) core0, _, asm 0x28 3 0 2 0 0 0 0 0, issues_of (by decide +kernel), by decide +kernel⟩

theorem witness_YieldAndBellwait_bellwait_goes_on : ∃ (s s1 : State) (i : IWord), Issues s 0 0 .bellwait i s1 ∧ (s1.core 0 0).entry = some 0 ∧ (s1.core 0 0).getS (iA i) + iImm i = (s1.sled 0).count ∧ (s1.sled 0).bell.work = true :=
  ⟨state0 (asm 0x28 3 0 0 0 0 0 0 0) core0 true, _, asm 0x28 3 0 0 0 0 0 0 0, issues_of (by decide +kernel), by decide +kernel⟩
/-! ### Single steps -/

/-- The state after a command. -/
def after (c : Instr) (s : State) : State :=
  match exec c s with
  | .next t => t
  | _ => s

/-- A 32-bit sum wraps, and is sign-extended without U (R118, R143). -/
theorem test_add_wraps : ((after (.add 0 0) (state0 (asm 1 0 3 1 2 0 1 0 0) { core0 with s := [(1, 0x7FFFFFFF), (2, 1)] })).core 0 0).getS 3 = 0xFFFFFFFF80000000 := by decide +kernel
/-- s63 discards what is written to it (R104). -/
theorem test_s63_reads_zero : ((after (.movi 0 0) (state0 (asm 3 0 63 0 0 0 0 0 7))).core 0 0).getS 63 = 0 := by decide +kernel
/-- TRAP from kernel mode: cause 0x20, EADDR = IMM, EPC the next word, PC = TVEC + 0x100 (R125, R173). -/
theorem test_trap : let k := (after (.trap 0 0) (state0 (asm 0x30 3 0 0 0 0 0 0 9) { core0 with tvec := 0x2000 })).core 0 0
    (k.ecause, k.eaddr, k.epc, k.pc, k.estate, k.state) = (0x20, 9, 0x40010, 0x2100, 1, 7) := by decide +kernel
/-- A command of another instruction than the one at PC has no effect. -/
theorem test_other_instruction : after (.sub 0 0) (state0 (asm 1 0 3 1 2 0 1 0 0)) = state0 (asm 1 0 3 1 2 0 1 0 0) := by decide +kernel
/-- A phase that is not below its stride is refused with CFG_BAD (R346). -/
theorem test_stride_refused : ((after (.rfeCmpStrideWrite .factor 0 0x00010001) State.reset).sled 0).r32 .rfeCmpStatus = 1 ∧ ((after (.rfeCmpStrideWrite .factor 0 0x00010001) State.reset).sled 0).r32 .rfeCmpStride = 1 := by decide +kernel
/-- An idle step passes a nanosecond. -/
theorem test_idle : step State.reset = .next { State.reset with now := 1 } := rfl

/-! ### Witnesses: submissions, the scheduler and accesses between sleds -/

theorem witness_SubmissionsReturnTheirStatus_waits : ∃ (s s1 : State) (i : IWord), Issues s 0 0 .tesubmit i s1 ∧ (s1.core 0 0).remotePending = true :=
  ⟨state0 (asm 0x29 0 3 1 2 0 0 0 0) { core0 with flights := [{ dst := .none, remote := true, asks := [(0, 0)] }] }, _, asm 0x29 0 3 1 2 0 0 0 0, issues_of (by decide +kernel), by decide +kernel⟩

theorem witness_SubmissionsReturnTheirStatus_count_0 : ∃ (s s1 : State) (i : IWord), Issues s 0 0 .tesubmit i s1 ∧ (s1.core 0 0).remotePending = false ∧ ((s1.core 0 0).getS (iB i)).toNat = 0 :=
  ⟨state0 (asm 0x29 0 3 1 63 0 0 0 0) core0, _, asm 0x29 0 3 1 63 0 0 0 0, issues_of (by decide +kernel), by decide +kernel⟩

theorem witness_SubmissionsReturnTheirStatus_count_4097 : ∃ (s s1 : State) (i : IWord), Issues s 0 0 .probesub i s1 ∧ (s1.core 0 0).remotePending = false ∧ 4096 < ((s1.core 0 0).getS (iB i)).toNat :=
  ⟨state0 (asm 0x29 2 3 1 2 0 0 0 0) { core0 with s := [(1, 0x40000050000), (2, 4097)] }, _, asm 0x29 2 3 1 2 0 0 0 0, issues_of (by decide +kernel), by decide +kernel⟩

theorem witness_SubmissionsReturnTheirStatus_launch : ∃ (s s1 : State) (i : IWord), Issues s 0 0 .deplaunch i s1 ∧ (s1.core 0 0).remotePending = false ∧ 512 < fld (iImm i) 25 16 :=
  ⟨state0 (asm 0x29 3 3 1 0 0 0 0 (513 * 2 ^ 16)) core0, _, asm 0x29 3 3 1 0 0 0 0 (513 * 2 ^ 16), issues_of (by decide +kernel), by decide +kernel⟩

theorem witness_SubmissionsReturnTheirStatus_resume : ∃ (s s1 : State) (i : IWord), Issues s 0 0 .teresume i s1 ∧ (s1.core 0 0).remotePending = false ∧ iImm i ≠ 0 :=
  ⟨state0 (asm 0x29 1 3 1 2 0 0 0 1) core0, _, asm 0x29 1 3 1 2 0 0 0 1, issues_of (by decide +kernel), by decide +kernel⟩

/-- READY of the TCB at 2^42 + 0x50000, which a parked thread has. -/
def state6 : State :=
  let d := sled0 (asm 0x28 1 3 1 0 0 0 0 0) core0 false
  { sleds := [(0, { d with slices := [(0, { entries := [(0, { st := .running, gen := 1, tcb := 0x60000, ctx := 0x61000 }), (1, { st := .parked, gen := 1, tcb := 0x50000 })] })] })] }

theorem witness_ReadyReturnsItsStatus : ∃ (s s1 : State) (i : IWord), Issues s 0 0 .ready i s1 ∧ ∃ r : Sled × ReadyRes, (s1.core 0 0).remotePending = false ∧
      r = (s1.sled 0).ready (s1.ctx 0) (s1.core 0 0).tenant ((s1.core 0 0).getS (iA i)).toNat ((s1.sled 0).threadItem 0) false ∧ (r.2, 0) ∈ [(ReadyRes.accepted, 0), (.existing, 0), (.refused, 1), (.badArgs, 3)] :=
  ⟨state6, _, asm 0x28 1 3 1 0 0 0 0 0, issues_of (by decide +kernel), _, by decide +kernel, rfl, by decide +kernel⟩

theorem witness_PreemptionAndDispatch : (∃ (d : Sled) (q : SchedReq), let k := d.core 0; d.ended = false ∧ k.sched = some q ∧ k.entry = some 0 ∧ k.halted = false ∧ k.flights = [] ∧ bit k.state 2 = false) ∧
    (∃ (d : Sled) (q : SchedReq), let k := d.core 0; d.ended = false ∧ k.sched = some q ∧ k.entry = some 0 ∧ k.halted = false ∧ k.flights = [] ∧ bit k.state 2 = true) ∧
    ∃ d : Sled, d.nextFor 0 = some 7 ∧ ∀ o : CoreId, o ≠ 0 → dieOf o = 0 → d.nextFor o ≠ some 7 :=
  ⟨⟨sled0 0 { core0 with sched := some ⟨0, none, false⟩ } true, ⟨0, none, false⟩, by decide +kernel⟩, ⟨sled0 0 { core0 with state := 5, sched := some ⟨0, none, false⟩ } true, ⟨0, none, false⟩, by decide +kernel⟩,
    ({ slices := [(0, { entries := [(7, { st := .ready, gen := 1 })], lists := [(0, [7])] })], units := { cores := [(0, 1)] }, bell := { work := true }, tenants := [(0, { allot := 1 })] } : Sled).w32 .schCtl 1 0
      |>.setRegBit .tntStatus 0 true 0, by decide +kernel⟩

theorem witness_EventsWakeTheirThread : ∀ (st : ThreadState), st ≠ .none → (∃ h : Word32, fld h 31 24 = 0) ∧
    ∃ (d : Sled) (h : Word32), let v := d.ent (fld h 12 12) (fld h 11 0); ¬(fld h 31 24 = 0 ∨ fld h 31 24 ≠ v.gen.toNat ∨ fld h 23 13 ≠ 0 ∨ v.st = .none ∨ v.tenant ≠ 0) ∧ v.st = st :=
  by
    intro st hst
    refine ⟨⟨0, by decide⟩, { slices := [(1, { entries := [(4095, { st := st, gen := 255 })] })] }, 0xFF001FFF, ?_⟩
    cases st <;> first | exact absurd rfl hst | decide +kernel

/-- Two sleds in service, with a frame from one to the other. -/
def state1 (b : Payload) : State := { sleds := [(0, ({} : Sled).w32 .twnState 4), (1, ({} : Sled).w32 .twnState 4)], fabric := [⟨0, 1, 0, 0, 0, b⟩] }

theorem witness_RequestsAreServedAndAnswered_load : ∃ (s : State) (f : Frame), s.inService 0 = true ∧ s.inService 1 = true ∧ (s.sled 1).convs = [] ∧ s.frameAt 0 1 isRdReq = some (0, f) ∧ f.body = .rdReq 0 8 0 0 ∧ s.answers 1 0 = true ∧ s.server 1 0 = 1 :=
  ⟨state1 (.rdReq 0 8 0 0), ⟨0, 1, 0, 0, 0, .rdReq 0 8 0 0⟩, by decide +kernel⟩

theorem witness_RequestsAreServedAndAnswered_no_stall : (∃ s : State, s.bothUp 0 1 = true ∧ (s.sled 1).convs = []) ∧ ∀ d : Sled, d.convs = [] → d.noStall :=
  ⟨⟨state1 (.rdReq 0 8 0 0), by decide +kernel⟩, fun d h off => by simp [Sled.converting, h]⟩

theorem witness_RequestsAreServedAndAnswered_post : ∃ (s : State) (p : Post), s.bothUp 0 1 = true ∧ s.frameAt 0 1 isWr = none ∧ s.postAt 0 1 isWr = some (0, p) ∧ p.body = .wr 8 [1] ∧ s.takesStore 1 8 = true :=
  ⟨{ sleds := [(0, ({ posts := [⟨1, 5, .wr 8 [1]⟩] } : Sled).w32 .twnState 4), (1, ({} : Sled).w32 .twnState 4)] }, ⟨1, 5, .wr 8 [1]⟩, by decide +kernel⟩

theorem witness_RequestsOutOfServiceFail_load : ∃ (s : State) (f : Frame), (s.inService 0 && s.inService 1) = false ∧ s.frameAt 0 1 isRdReq = some (0, f) ∧ f.body = .rdReq 0 8 0 0 :=
  ⟨{ fabric := [⟨0, 1, 0, 0, 0, .rdReq 0 8 0 0⟩] }, ⟨0, 1, 0, 0, 0, .rdReq 0 8 0 0⟩, by decide +kernel⟩

theorem witness_RequestsAreServedAndAnswered_store : ∃ (s : State) (f : Frame), s.inService 0 = true ∧ s.inService 1 = true ∧ (s.sled 1).convs = [] ∧ s.frameAt 0 1 isWr = some (0, f) ∧ f.body = .wr 0 [1] ∧ s.takesStore 1 0 = true :=
  ⟨state1 (.wr 0 [1]), ⟨0, 1, 0, 0, 0, .wr 0 [1]⟩, by decide +kernel⟩

theorem witness_RequestsOutOfServiceFail_store : ∃ (s : State) (f : Frame), (s.inService 0 && s.inService 1) = false ∧ s.frameAt 0 1 isWr = some (0, f) ∧ f.body = .wr 0 [1] :=
  ⟨{ fabric := [⟨0, 1, 0, 0, 0, .wr 0 [1]⟩] }, ⟨0, 1, 0, 0, 0, .wr 0 [1]⟩, by decide +kernel⟩

theorem witness_RequestsAreServedAndAnswered_atomic : ∃ (s : State) (f : Frame), s.inService 0 = true ∧ s.inService 1 = true ∧ (s.sled 1).convs = [] ∧ s.frameAt 0 1 isAmo = some (0, f) ∧ f.body = .amo .add 0 8 true 1 0 0 ∧ s.takesStore 1 0 = true :=
  ⟨state1 (.amo .add 0 8 true 1 0 0), ⟨0, 1, 0, 0, 0, .amo .add 0 8 true 1 0 0⟩, by decide +kernel⟩

theorem witness_RequestsOutOfServiceFail_atomic : ∃ (s : State) (f : Frame), (s.inService 0 && s.inService 1) = false ∧ s.frameAt 0 1 isAmo = some (0, f) ∧ f.body = .amo .add 0 8 true 1 0 0 :=
  ⟨{ fabric := [⟨0, 1, 0, 0, 0, .amo .add 0 8 true 1 0 0⟩] }, ⟨0, 1, 0, 0, 0, .amo .add 0 8 true 1 0 0⟩, by decide +kernel⟩

theorem witness_AnswersCompleteTheirOperation_load : ∃ (s : State) (f : Frame) (g : Flight), (s.core 1 f.core).flight f.id = some g ∧ s.frameAt 0 1 isRdRsp = some (0, f) ∧ f.body = .rdRsp 0 0 [1] [false] false ∧ (g.asks.filter fun a => decide (a.1 ≠ 0)) = [] ∧ g.asks ≠ [] :=
  ⟨{ sleds := [(1, { cores := [(0, { flights := [{ asks := [(0, 0)] }] })] })], fabric := [⟨0, 1, 0, 0, 0, .rdRsp 0 0 [1] [false] false⟩] }, ⟨0, 1, 0, 0, 0, .rdRsp 0 0 [1] [false] false⟩, { asks := [(0, 0)] }, by decide +kernel⟩

theorem witness_AnswersCompleteTheirOperation_store : ∃ (s : State) (f : Frame) (g : Flight), (s.core 1 f.core).flight f.id = some g ∧ s.frameAt 0 1 isWrAck = some (0, f) ∧ f.body = .wrAck false ∧ (g.asks.filter fun a => decide (a.1 ≠ 0)) = [] ∧ g.asks ≠ [] :=
  ⟨{ sleds := [(1, { cores := [(0, { flights := [{ asks := [(0, 0)] }] })] })], fabric := [⟨0, 1, 0, 0, 0, .wrAck false⟩] }, ⟨0, 1, 0, 0, 0, .wrAck false⟩, { asks := [(0, 0)] }, by decide +kernel⟩

theorem witness_AnswersCompleteTheirOperation_atomic : ∃ (s : State) (f : Frame) (g : Flight), (s.core 1 f.core).flight f.id = some g ∧ s.frameAt 0 1 isAmoRsp = some (0, f) ∧ f.body = .amoRsp 5 0 false false ∧ (g.asks.filter fun a => decide (a.1 ≠ 0)) = [] ∧ g.asks ≠ [] :=
  ⟨{ sleds := [(1, { cores := [(0, { flights := [{ asks := [(0, 0)] }] })] })], fabric := [⟨0, 1, 0, 0, 0, .amoRsp 5 0 false false⟩] }, ⟨0, 1, 0, 0, 0, .amoRsp 5 0 false false⟩, { asks := [(0, 0)] }, by decide +kernel⟩

/-! ### Witnesses: config space -/

theorem witness_ConfigAccessesFollowTheirTables : (∃ off : CfgOff, off.toNat % 4 ≠ 0) ∧ (∃ off : CfgOff, off.toNat % 8 ≠ 0 ∧ off.toNat % 4 = 0) ∧ (∃ width : Nat, width ≠ 4 ∧ width ≠ 8) ∧
    (∃ (n : Node) (off : CfgOff), cfgAt n off.toNat = none ∧ off.toNat % 4 = 0) ∧ (∃ (n : Node) (off : CfgOff), cfgAt n off.toNat = some ⟨.gteBudget, 63, 0, false⟩ ∧ off.toNat % 4 = 0) ∧
    ∃ (n : Node) (off : CfgOff), cfgAt n off.toNat = some ⟨.belEvent, 0, 0, false⟩ ∧ off.toNat % 4 = 0 :=
  ⟨⟨0x3FFFFFF, by decide⟩, ⟨4, by decide⟩, ⟨2, by decide⟩, ⟨.sled 0, 0x600000, by decide +kernel⟩, ⟨.sled 0, BitVec.ofNat 26 (regOff .gteBudget 63 0), by decide +kernel⟩, ⟨.rf 1, BitVec.ofNat 26 (regOff .belEvent 0 0), by decide +kernel⟩⟩

theorem witness_PairsAreReadAndWrittenWhole : ∃ (s : State) (n : Node) (lo hi : CfgOff) (h h' : RegHit), cfgAt n lo.toNat = some h ∧ (regInfo h.reg).wide = true ∧ h.high = false ∧ lo.toNat % 8 = 0 ∧ cfgAt n hi.toNat = some h' ∧ h'.high = true ∧ hi.toNat % 4 = 0 ∧
    h'.reg = .tntPtroot ∧ writeTaken .factor h'.reg = true ∧ (s.space n).shadow .factor lo.toNat = some 5 ∧ (s.space n).shadow (.core 0 0) lo.toNat = none ∧ (s.space n).heldAt lo.toNat = some (.factor, 7) :=
  ⟨{ sleds := [(0, { cfg := { shadows := [(.factor, regOff .tntPtroot 3 0, 5)], held := [(regOff .tntPtroot 3 0, .factor, 7)] } })] }, .sled 0, BitVec.ofNat 26 (regOff .tntPtroot 3 0), BitVec.ofNat 26 (regOff .tntPtroot 3 0 + 4),
    ⟨.tntPtroot, 3, 0, false⟩, ⟨.tntPtroot, 3, 0, true⟩, by decide +kernel⟩

theorem witness_CheckedRegistersRefuseWhatMayNotStand : (∃ d : Sled, d.usedBy 0 (fun e => decide (e.channel = 7)) ≠ 0) ∧ (∃ d : Sled, d.usedBy 0 (fun e => decide (e.channel = 7)) = 0) ∧ (∃ v : Word64, fld v 11 0 = 0) ∧ (∃ v : Word64, fld v 11 0 ≠ 0) ∧
    (∃ (d : Sled) (v : Word64), bit v 0 = true ∧ d.entryOk 1023 v = false) ∧ (∃ (d : Sled) (v : Word64), bit v 0 = true ∧ d.entryOk 1023 v = true) ∧
    (∃ (d : Sled) (v : Word64), d.rangeOk 255 v = true ∧ fld v 63 62 ≠ 0) ∧ ∃ (d : Sled) (v : Word64), d.rangeOk 255 v = false :=
  ⟨⟨{ slices := [(0, { entries := [(4095, { st := .parked, channel := 7 })] })] }, by decide +kernel⟩, ⟨{}, by decide +kernel⟩, ⟨0x1000, by decide⟩, ⟨0x800, by decide⟩, ⟨{}, 1, by decide +kernel⟩,
    ⟨{}, 0x400001, by decide +kernel⟩, ⟨{}, 0x4000000100000000, by decide +kernel⟩, ⟨{}, 0x4000000000000000, by decide +kernel⟩⟩

/-! ### Witnesses: the Bell -/

theorem witness_BoundariesAdvanceTheBell : (∃ d : Sled, isEpoch (d.count + 1) = true ∧ bit (d.r32 .belStatus) 9 = true ∧ pairValid (d.r32 .belPeriodNext) (d.r32 .belFracNext) = true ∧ (d.r32 .belPeriod).toNat ≤ 200000000) ∧
    (∃ s : State, (s.sled 0).bell.running = false) ∧ (∃ s : State, (s.sled 0).bell.running = true) ∧ (∃ s : State, (s.rf 0).up = false) ∧
    (∃ s : State, (s.rf 0).up = true ∧ (s.rf 0).bell.running = true ∧ (0 : RfId) = s.activeRf) ∧ ∃ s : State, (s.rf 1).up = true ∧ (s.rf 1).bell.running = true ∧ (1 : RfId) ≠ s.activeRf ∧ (s.rf 1).period ≤ 200000000 :=
  ⟨⟨((({} : Sled).w64 .belCount 1023).w32 .belStatus 0x200), by decide +kernel⟩, ⟨{}, by decide +kernel⟩, ⟨{ sleds := [(0, { bell := { running := true } })] }, by decide +kernel⟩, ⟨{}, by decide +kernel⟩,
    ⟨{ rfs := [(0, { up := true, bell := { running := true } })] }, by decide +kernel⟩, ⟨{ rfs := [(1, { up := true, bell := { running := true } })] }, by decide +kernel⟩⟩

theorem witness_SourcesQualifyAndAreLost : (∃ r : RackFactor, r.up = true ∧ (∃ e, r.bell.lastEdge = some e ∧ 2 * (24999999 - e) < r.period) ∧ 7 ≤ r.bell.rejTick ∧ bit (r.r32 .belStatus) 7 = true) ∧
    (∃ r : RackFactor, r.up = true ∧ r.bell.lastEdge = some 0 ∧ ¬2 * (25000000 - 0) < r.period) ∧ (∃ r : RackFactor, r.up = true ∧ r.bell.lastEdge = some 0 ∧ bit (r.r32 .belStatus) 5 = true ∧ r.src = 1) ∧
    (∃ r : RackFactor, r.up = true ∧ r.src = 2 ∧ bit (r.r32 .belStatus) 4 = true) ∧ ∃ r : RackFactor, r.up = true ∧ r.bell.slewFrom = some 0 ∧ bit (r.r32 .belStatus) 8 = true ∧ 100 ≤ (r.count - 0).toNat ∧ r.src ≠ 0 :=
  ⟨⟨{ up := true, bell := { lastEdge := some 0, rejTick := 7 } }, rfl, ⟨0, by decide +kernel⟩, by decide +kernel, by decide +kernel⟩, ⟨{ up := true, bell := { lastEdge := some 0 } }, by decide +kernel⟩,
    ⟨({ up := true, bell := { lastEdge := some 0 } } : RackFactor).w32 .belStatus 0xE1, by decide +kernel⟩, ⟨({ up := true } : RackFactor).w32 .belStatus 0xD2, by decide +kernel⟩,
    ⟨(({ up := true, bell := { slewFrom := some 0 } } : RackFactor).w32 .belStatus 0x1E1).w64 .belCount 100, by decide +kernel⟩⟩

theorem witness_BellRegistersAndPtp : (∃ (r : RackFactor) (m : PtpMsg), (r.up = true ∧ m.domain.toNat = fld (r.r32 .belPtp) 6 0) ∧ m.kind = .announce) ∧ (∃ (r : RackFactor) (m : PtpMsg), ¬(r.up = true ∧ m.domain.toNat = fld (r.r32 .belPtp) 6 0)) ∧
    (∃ s : State, (0 : RfId) = s.activeRf) ∧ (∃ s : State, (1 : RfId) ≠ s.activeRf) ∧ ∃ (r : RackFactor) (v : Word32), r.r32 .belPtp ≠ v &&& 0x17F :=
  ⟨⟨{ up := true }, { kind := .announce, domain := 127, offset := 0, ptpTime := 0 }, by decide +kernel⟩, ⟨{ up := true }, { kind := .sync, domain := 126, offset := 0, ptpTime := 0 }, by decide +kernel⟩, ⟨{}, by decide +kernel⟩, ⟨{}, by decide +kernel⟩, ⟨{}, 0, by decide +kernel⟩⟩

theorem witness_BellMessagesKeepSledsInStep : (∃ s : State, (s.sled 0).rackState = 0) ∧ (∃ s : State, (s.sled 0).ended = false ∧ s.isolatedPort 0 = false ∧ (s.sled 0).rackState = 4 ∧ (s.sled 0).count = 9) ∧
    (∃ s : State, (s.sled 0).ended = false ∧ s.isolatedPort 0 = false ∧ (s.sled 0).rackState = 7 ∧ (s.sled 0).count ≠ 9 ∧ ∀ u, (s.sled 0).active u = true → (s.sled 0).mirror u = false) ∧
    (∃ s : State, (s.sled 0).ended = false ∧ s.isolatedPort 0 = false ∧ (s.sled 0).rackState = 3 ∧ isEpoch 1024 = true) ∧ (∃ d : Sled, d.bell.running = true ∧ d.bell.absent = false) ∧
    (∃ d : Sled, d.bell.leaseUntil = some 4 ∧ (4 : Word64).toNat ≤ d.count.toNat) ∧ ∃ d : Sled, d.bell.leaseUntil = some 5 ∧ d.count.toNat < (5 : Word64).toNat :=
  ⟨⟨{}, by decide +kernel⟩, ⟨{ sleds := [(0, (({} : Sled).w32 .twnState 4).w64 .belCount 9)] }, by decide +kernel⟩, ⟨{ sleds := [(0, ({} : Sled).w32 .twnState 7)] }, by decide +kernel⟩,
    ⟨{ sleds := [(0, ({} : Sled).w32 .twnState 3)] }, by decide +kernel⟩, ⟨{ bell := { running := true } }, by decide +kernel⟩, ⟨({ bell := { leaseUntil := some 4 } } : Sled).w64 .belCount 4, by decide +kernel⟩,
    ⟨({ bell := { leaseUntil := some 5 } } : Sled).w64 .belCount 4, by decide +kernel⟩⟩

theorem witness_SettleStepsRunInOrder : (∃ d : Sled, d.bell.running = true ∧ d.bell.settle = 1) ∧
    (∃ d : Sled, d.bell.running = true ∧ d.bell.settle = 2 ∧ d.stopped = true) ∧
    (∃ d : Sled, d.bell.running = true ∧ d.bell.settle = 3) ∧
    (∃ d : Sled, d.bell.settle = 4 ∧ d.step4Tenants = []) ∧
    (∃ d : Sled, d.bell.running = true ∧ d.bell.settle = 5 ∧ d.stopsHere = false) ∧
    (∃ d : Sled, d.bell.running = true ∧ d.bell.settle = 5 ∧ d.stopsHere = true) ∧
    (∃ d : Sled, d.bell.running = true ∧ d.bell.admitted = false ∧ d.bell.work = false ∧ d.bell.settle ∈ [1, 2, 3, 4, 7] ∧ d.stopsHere = false) ∧
    (∃ d : Sled, d.bell.running = true ∧ d.bell.work = false ∧ d.bell.absent = false ∧ d.bell.admitted = true) :=
  ⟨⟨{ bell := { running := true, settle := 1 } }, by decide +kernel⟩, ⟨{ bell := { running := true, settle := 2 } }, by decide +kernel⟩, ⟨{ bell := { running := true, settle := 3 } }, by decide +kernel⟩, ⟨{ bell := { settle := 4 } }, by decide +kernel⟩, ⟨{ bell := { running := true, settle := 5 } }, by decide +kernel⟩, ⟨({ bell := { running := true, settle := 5 }, power := { stopAfter := some 0 } } : Sled).w32 .pwrStatus 4, by decide +kernel⟩, ⟨{ bell := { running := true, settle := 4 } }, by decide +kernel⟩, ⟨{ bell := { running := true, settle := 6, admitted := true } }, by decide +kernel⟩⟩
/-! ### Witnesses: tenants, queues and the Gate -/

theorem witness_TenantRegistersAndResets : (∃ d : Sled, bit (d.r32 .tntCtl 63) 0 = false ∧ 16 ≤ allTenants.countP fun o => decide (o ≠ 63) && bit (d.r32 .tntCtl o) 0) ∧
    (∃ d : Sled, let a : Word32 := 96; (fld a 6 0 + ((allTenants.filter fun o => decide (o ≠ 63) && bit (d.r32 .tntCtl o) 0).map fun o => fld (d.r32 .tntAllot o) 6 0).sum) ≤ d.healthyCores) ∧
    (∃ d : Sled, let a : Word32 := 97; d.healthyCores < fld a 6 0) ∧ (∃ d : Sled, d.resetBusy 63 = true) ∧ (∃ d : Sled, d.resetBusy 63 = false ∧ d.mirror 63 = true) ∧ (∃ d : Sled, d.resetBusy 63 = false ∧ d.mirror 63 = false) ∧
    (∃ d : Sled, (d.ten 63).toll ≠ 0 ∧ (d.ten 63).tolled = false ∧ 1000 * (d.ten 63).toll.toNat ≤ (d.r64 .ledCur 63).toNat ∧ d.active 63 = true ∧ d.bell.settle ∉ [1, 2, 3]) ∧
    ∃ d : Sled, (d.ten 63).toll ≠ 0 ∧ (d.r64 .ledCur 63).toNat < 1000 * (d.ten 63).toll.toNat :=
  ⟨⟨(List.range 16).foldl (fun (d : Sled) i => d.w32 .tntCtl 1 i) {}, by decide +kernel⟩, ⟨{}, by decide +kernel⟩, ⟨{}, by decide +kernel⟩, ⟨({} : Sled).setRegBit .tntStatus 1 true 63, by decide +kernel⟩,
    ⟨{ tenants := [(63, { mode := 2 })] }, by decide +kernel⟩, ⟨{}, by decide +kernel⟩, ⟨(({ tenants := [(63, { toll := 2 })] } : Sled).setRegBit .tntStatus 0 true 63).w64 .ledCur 2000 63, by decide +kernel⟩,
    ⟨({ tenants := [(63, { toll := 2 })] } : Sled).w64 .ledCur 1999 63, by decide +kernel⟩⟩

theorem witness_TenantRegistersAndResets_both_twins : ∃ s : State, s.bothTwins .rackFactor 14 63 = true ∧ (s.sled 14).resetBusy 63 = false ∧ bit ((s.sled 14).r32 .twnT 63 0) 4 = true ∧ bit ((s.sled (twinOf 14)).r32 .twnT 63 0) 4 = true :=
  ⟨{ sleds := [(14, (({ tenants := [(63, { mode := 2 })] } : Sled).setRegBit .tntStatus 0 true 63).w32 .twnT 16 63 0), (15, (({} : Sled).w32 .twnState 4).w32 .twnT 16 63 0)], rfs := [(0, ({} : RackFactor).w32 .twnRkSled 4 15)] }, by decide +kernel⟩

/-- The sled of tenant 0 with queue 0 of 16 entries at the data page: its ring at 2^42 + 0x50000, an entry there, and its header at 2^42 + 0x50040. -/
def sled1 (e : BitVec 512) (hdr : BitVec 512) (work : Bool := true) : Sled :=
  let d : Sled := { sled0 0 {} work with queues := [(0, { tail := 1, opened := true })] }
  ({ d with cache := mset (mset d.cache 5120 (some { data := e })) 5121 (some { data := hdr }) } : Sled)
    |>.w32 .tntQCtl 0x401 0 0 |>.w64 .tntQBase 0x40000050000 0 0 |>.w64 .tntQHdr 0x40000050040 0 0 |>.setRegBit .tntStatus 0 true 0 |>.w32 .twnState 4

theorem witness_QueuesOpenAndTakeTheirTail : (∃ (d : Sled) (v : Word32), bit v 16 = false ∧ bit (d.r32 .tntQCtl 0 0) 0 = true ∧ bit v 0 = true ∧ fld v 12 8 ≠ fld (d.r32 .tntQCtl 0 0) 12 8) ∧
    (∃ (d : Sled) (v : Word32), bit v 16 = false ∧ bit (d.r32 .tntQCtl 0 0) 0 = true ∧ bit v 0 = true ∧ fld v 12 8 = fld (d.r32 .tntQCtl 0 0) 12 8) ∧
    (∃ (d : Sled) (v : Word32), bit v 16 = false ∧ bit (d.r32 .tntQCtl 0 0) 0 = false ∧ bit v 0 = true ∧ fld v 12 8 = 3) ∧
    (∃ (d : Sled) (v : Word32), bit v 16 = false ∧ bit (d.r32 .tntQCtl 0 0) 0 = false ∧ bit v 0 = true ∧ fld v 12 8 = 16 ∧ (d.r64 .tntQBase 0 0).toNat % (2 ^ 16 * 64) = 0 ∧ d.qHdr 0 0 % 64 = 0) ∧
    (∃ d : Sled, d.qOn 0 0 = false ∨ (d.queue 0 0).opened = true) ∧
    (∃ (d d1 : Sled) (bs : List Byte) (bad : List Bool), d.qOn 0 0 = true ∧ (d.queue 0 0).opened = true ∧ d.uRead ctx0 0 true (d.qHdr 0 0 + 8) 4 = (d1, .ok bs bad) ∧ bad.any id = false ∧
      d1.qSize 0 0 < ((ofBytes 32 bs : Word32) - (d.queue 0 0).head).toNat) ∧
    ∃ (d d1 : Sled) (bs : List Byte) (bad : List Bool), d.qOn 0 0 = true ∧ (d.queue 0 0).opened = true ∧ d.uRead ctx0 0 true (d.qHdr 0 0 + 8) 4 = (d1, .ok bs bad) ∧ bad.any id = false ∧
      ((ofBytes 32 bs : Word32) - (d.queue 0 0).head).toNat ≤ d1.qSize 0 0 ∧ d.bell.work = false ∧ d1.bell = d.bell :=
  ⟨⟨sled1 0 0, 0x501, by decide +kernel⟩, ⟨sled1 0 0, 0x401, by decide +kernel⟩, ⟨{}, 0x301, by decide +kernel⟩, ⟨{}, 0x1001, by decide +kernel⟩, ⟨{}, by decide +kernel⟩,
    ⟨sled1 0 (17 <<< 64), _, [17, 0, 0, 0], [false, false, false, false], by decide +kernel, by decide +kernel, pair_of (by decide +kernel), by decide, by decide +kernel⟩,
    ⟨sled1 0 (16 <<< 64) false, _, [16, 0, 0, 0], [false, false, false, false], by decide +kernel, by decide +kernel, pair_of (by decide +kernel), by decide, by decide +kernel, by decide +kernel, by decide +kernel⟩⟩

theorem witness_QueuesOpenAndTakeTheirTail_header : ∃ (d d1 : Sled) (bs : List Byte) (bad : List Bool), d.uRead ctx0 0 true (d.qHdr 0 0) 12 = (d1, .ok bs bad) ∧ bad.any id = false ∧ d1.qSize 0 0 = d.qSize 0 0 :=
  ⟨sled1 0 (1 <<< 64), _, [0, 0, 0, 0, 0, 0, 0, 0, 1, 0, 0, 0], List.replicate 12 false, pair_of (by decide +kernel), by decide, by decide +kernel⟩

theorem witness_HeadsAreAdmitted_nop : ∃ (d d1 : Sled) (bs : List Byte) (bad : List Bool), d.gateOpen 0 = true ∧ d.qReady 0 0 = true ∧ (d.queue 0 0).skip = [] ∧ d.bell.work = true ∧ d.mirror 0 = false ∧ d.uRead ctx0 0 true (d.qSlot 0 0 (d.queue 0 0).head) 64 = (d1, .ok bs bad) ∧ bad.any id = false ∧
      d1.queue 0 0 = d.queue 0 0 ∧ (parseEntry bs).kind = 0 ∧ (parseEntry bs).malformed = false ∧ (bit (parseEntry bs).flags 0 && d1.qBusy 0 0) = false :=
  ⟨sled1 0 0, _, toBytes (0 : BitVec 512) 64, List.replicate 64 false, by decide +kernel, by decide +kernel, by decide +kernel, by decide +kernel, by decide +kernel, pair_of (by decide +kernel), by decide +kernel, by decide +kernel, by decide +kernel⟩

theorem witness_HeadsAreAdmitted_over_budget : ∃ (d d1 : Sled) (bs : List Byte) (bad : List Bool), d.gateOpen 0 = true ∧ d.qReady 0 0 = true ∧ (d.queue 0 0).skip = [] ∧ d.bell.work = true ∧ d.mirror 0 = false ∧ d.uRead ctx0 0 true (d.qSlot 0 0 (d.queue 0 0).head) 64 = (d1, .ok bs bad) ∧ bad.any id = false ∧
      d1.queue 0 0 = d.queue 0 0 ∧ (parseEntry bs).kind = 2 ∧ (parseEntry bs).malformed = false ∧ (d1.r32 .gteRemain 0).toNat < (parseEntry bs).charge :=
  ⟨sled1 0x100000002 0, _, toBytes (0x100000002 : BitVec 512) 64, List.replicate 64 false, by decide +kernel, by decide +kernel, by decide +kernel, by decide +kernel, by decide +kernel, pair_of (by decide +kernel), by decide +kernel, by decide +kernel, by decide +kernel⟩

theorem witness_HeadsAreAdmitted_malformed : ∃ (d d1 : Sled) (bs : List Byte) (bad : List Bool), d.gateOpen 0 = true ∧ d.qReady 0 0 = true ∧ (d.queue 0 0).skip = [] ∧ d.bell.work = true ∧ d.mirror 0 = false ∧ d.uRead ctx0 0 true (d.qSlot 0 0 (d.queue 0 0).head) 64 = (d1, .ok bs bad) ∧ bad.any id = false ∧
      d1.queue 0 0 = d.queue 0 0 ∧ (parseEntry bs).malformed = true :=
  ⟨sled1 0x400 0, _, toBytes (0x400 : BitVec 512) 64, List.replicate 64 false, by decide +kernel, by decide +kernel, by decide +kernel, by decide +kernel, by decide +kernel, pair_of (by decide +kernel), by decide +kernel, by decide +kernel, by decide +kernel⟩

theorem witness_HeadsAreAdmitted_reserved : ∃ (d d1 : Sled) (bs : List Byte) (bad : List Bool), d.gateOpen 0 = true ∧ d.qReady 0 0 = true ∧ (d.queue 0 0).skip = [] ∧ d.bell.work = true ∧ d.mirror 0 = false ∧ d.uRead ctx0 0 true (d.qSlot 0 0 (d.queue 0 0).head) 64 = (d1, .ok bs bad) ∧ bad.any id = false ∧
      d1.queue 0 0 = d.queue 0 0 ∧ 8 ≤ (parseEntry bs).kind.toNat ∧ (parseEntry bs).malformed = false :=
  ⟨sled1 8 0, _, toBytes (8 : BitVec 512) 64, List.replicate 64 false, by decide +kernel, by decide +kernel, by decide +kernel, by decide +kernel, by decide +kernel, pair_of (by decide +kernel), by decide +kernel, by decide +kernel, by decide +kernel⟩

theorem witness_HeadsAreAdmitted_unit : ∃ (d d1 : Sled) (bs : List Byte) (bad : List Bool), d.uRead ctx0 0 true (d.qSlot 0 0 (d.queue 0 0).head) 64 = (d1, .ok bs bad) ∧ bad.any id = false ∧ d1.queue 0 0 = d.queue 0 0 ∧
    (parseEntry bs).malformed = false ∧ (parseEntry bs).kind = 6 ∧ (parseEntry bs).charge ≤ (d1.r32 .gteRemain 0).toNat ∧ d1.unitTakes 0 (parseEntry bs) = some (0, false) :=
  ⟨((sled1 (6 + 0x1000000000 * 2 ^ 128 + 2 ^ 320) 0).w32 .gteRemain 1 0).w32 .prtCtl 1 0, _, toBytes (6 + 0x1000000000 * 2 ^ 128 + 2 ^ 320 : BitVec 512) 64, List.replicate 64 false, pair_of (by decide +kernel), by decide +kernel, by decide +kernel, by decide +kernel⟩

theorem witness_HeadsAreAdmitted_no_room : ∃ (d d1 : Sled) (bs : List Byte) (bad : List Bool), d.uRead ctx0 0 true (d.qSlot 0 0 (d.queue 0 0).head) 64 = (d1, .ok bs bad) ∧ bad.any id = false ∧ d1.queue 0 0 = d.queue 0 0 ∧
    (parseEntry bs).malformed = false ∧ (parseEntry bs).kind = 6 ∧ (parseEntry bs).charge ≤ (d1.r32 .gteRemain 0).toNat ∧ d1.unitTakes 0 (parseEntry bs) = none :=
  ⟨(sled1 (6 + 0x1000000000 * 2 ^ 128 + 2 ^ 320) 0).w32 .gteRemain 1 0, _, toBytes (6 + 0x1000000000 * 2 ^ 128 + 2 ^ 320 : BitVec 512) 64, List.replicate 64 false, pair_of (by decide +kernel), by decide +kernel, by decide +kernel, by decide +kernel⟩

theorem witness_HeadsAreAdmitted_thread_fault : ∃ (d d1 : Sled) (bs : List Byte) (bad : List Bool) (f : TFault), d.uRead ctx0 0 true (d.qSlot 0 0 (d.queue 0 0).head) 64 = (d1, .ok bs bad) ∧ bad.any id = false ∧ d1.queue 0 0 = d.queue 0 0 ∧
    (parseEntry bs).malformed = false ∧ (parseEntry bs).kind = 1 ∧ (parseEntry bs).charge ≤ (d1.r32 .gteRemain 0).toNat ∧ (d1.ready ctx0 0 ((parseEntry bs).word 0).toNat d1.nextItem true).2 = .fault f :=
  ⟨(sled1 (1 + 2 ^ 55 * 2 ^ 128) 0).w32 .gteRemain 1 0, _, toBytes (1 + 2 ^ 55 * 2 ^ 128 : BitVec 512) 64, List.replicate 64 false, ⟨1, 2 ^ 55, 0, 1, 0⟩, pair_of (by decide +kernel), by decide +kernel, by decide +kernel, by decide +kernel⟩

/-- A sled whose queue 0 of tenant 0 is empty, with an entry in its ring, and the TAIL of one entry in its header at 2^43 + 0x40. -/
def sled5 (e : BitVec 512) : Sled :=
  let d : Sled := { sled1 e 0 with queues := [(0, { opened := true })] }
  ({ d with cache := mset (mset (mset d.cache 1024 (some { data := 0x20001#512 + (0x30001#512 <<< 64) + (0x70001#512 <<< 128) })) 0x1C00 (some { data := 0x13 })) 1 (some { data := 1#512 <<< 64 }) } : Sled).w64 .tntQHdr 0x80000000040 0 0

theorem witness_EntryRowsAdmitTheirHead : ∃ (s : State) (d1 : Sled) (tb bs : List Byte) (tbad bad : List Bool), let d := s.sled 0; let x : Ctx := s.ctx 0; let k := d.queue 0 0
    let tail : Word32 := ofBytes 32 tb
    let d2 := (d1.onQueue 0 0 fun k => { k with tail := tail }).qBit 0 0 1 false
    let r := d2.admitHead x 0 0 true
    (d.qOn 0 0 = true ∧ k.opened = true ∧ k.skip = []) ∧ d.uRead x 0 true (d.qHdr 0 0 + 8) 4 = (d1, .ok tb tbad) ∧ tbad.any id = false ∧ tail = k.head + 1 ∧ d1.queue 0 0 = k ∧ (d.uRead x 0 true (d.qSlot 0 0 k.head) 64).2 = .ok bs bad ∧
      d2.bell.work = true ∧ d2.mirror 0 = false ∧ d2.gateOpen 0 = true ∧ d2.qReady 0 0 = true ∧ d2.queueOrder 0 = [0] ∧ (parseEntry bs).kind = 2 ∧ (parseEntry bs).malformed = false ∧ r.2 = .left true :=
  ⟨{ sleds := [(0, sled5 2)] }, _, [1, 0, 0, 0], toBytes (2 : BitVec 512) 64, [false, false, false, false], List.replicate 64 false, by decide +kernel, pair_of (by decide +kernel), by decide, by decide +kernel⟩

theorem witness_EntryRowsAdmitTheirHead_taken : ∃ (s : State) (d1 : Sled) (tb bs : List Byte) (tbad bad : List Bool), let d := s.sled 0; let x : Ctx := s.ctx 0; let k := d.queue 0 0
    let tail : Word32 := ofBytes 32 tb
    let d2 := (d1.onQueue 0 0 fun k => { k with tail := tail }).qBit 0 0 1 false
    let r := d2.admitHead x 0 0 true
    (d.qOn 0 0 = true ∧ k.opened = true ∧ k.skip = []) ∧ d.uRead x 0 true (d.qHdr 0 0 + 8) 4 = (d1, .ok tb tbad) ∧ tbad.any id = false ∧ tail = k.head + 1 ∧ d1.queue 0 0 = k ∧ (d.uRead x 0 true (d.qSlot 0 0 k.head) 64).2 = .ok bs bad ∧
      d2.bell.work = true ∧ d2.mirror 0 = false ∧ d2.gateOpen 0 = true ∧ d2.qReady 0 0 = true ∧ d2.queueOrder 0 = [0] ∧ (parseEntry bs).kind = 0 ∧ (parseEntry bs).malformed = false ∧ r.2 = .taken :=
  ⟨{ sleds := [(0, sled5 0)] }, _, [1, 0, 0, 0], toBytes (0 : BitVec 512) 64, [false, false, false, false], List.replicate 64 false, by decide +kernel, pair_of (by decide +kernel), by decide, by decide +kernel⟩

theorem witness_CompletionWritesItsWord : (∃ (d : Sled) (i : Item), d.items.find? (fun j => decide (j.tenant = 0 ∧ j.queue = 0 ∧ j.entry = 0 ∧ j.st = .finished)) = some i ∧ bit i.flags 1 = false ∧ i.compl = 0 ∧ d.bell.work = false) ∧
    ∃ (d d1 : Sled) (i : Item), d.items.find? (fun j => decide (j.tenant = 0 ∧ j.queue = 0 ∧ j.entry = 0 ∧ j.st = .finished)) = some i ∧ bit i.flags 1 = false ∧ i.compl ≠ 0 ∧
      d.uWrite ctx0 0 true i.compl.toNat (toBytes (0 : Word64) 8) = (d1, none) :=
  ⟨⟨{ items := [{ st := .finished }] }, { st := .finished }, by decide +kernel⟩,
    ⟨{ sled1 0 0 with items := [{ st := .finished, compl := 0x40000050000 }] }, _, { st := .finished, compl := 0x40000050000 }, by decide +kernel, by decide +kernel, by decide +kernel, pair_of (by decide +kernel)⟩⟩

theorem witness_InvalidationsConversionsAndScrub : (∃ d : Sled, ((d.convs.filter fun c => decide (c.index = 0)).any fun c => d.kernelIn c.entry) = false ∧ d.convs ≠ []) ∧
    (∃ d : Sled, ((d.convs.filter fun c => decide (c.index = 0)).any fun c => d.kernelIn c.entry) = true) ∧ (∃ d : Sled, fld (d.r32 .regScrub) 7 0 = 0) ∧ ∃ d : Sled, fld (d.r32 .regScrub) 7 0 ≠ 0 :=
  ⟨⟨{ convs := [⟨0, 0x400001, false⟩] }, by decide +kernel⟩,
    ⟨{ convs := [⟨0, 0x400001, false⟩], depots := [(0, { queue := [{ started := true, wins := [⟨false, true, 32, [(0, 0x010000000000, 32)]⟩] }] })] }, by decide +kernel⟩, ⟨({} : Sled).w32 .regScrub 0, by decide +kernel⟩, ⟨{}, by decide +kernel⟩⟩

/-! ### Witnesses: power, the Tether and the rack -/

theorem witness_LedgerStepSharesTheEnergy : (∃ d : Sled, d.ended = true) ∧
    (∃ d : Sled, d.ended = false ∧ d.active 5 = true ∧ d.bell.settle ∉ [1, 2, 3]) ∧
    (∃ d : Sled, d.ended = false ∧ d.active 5 = true ∧ d.bell.settle ∈ [1, 2, 3]) :=
  ⟨⟨{ ended := true }, by decide +kernel⟩, ⟨({} : Sled).setRegBit .tntStatus 0 true 5, by decide +kernel⟩, ⟨({ bell := { settle := 3 } } : Sled).setRegBit .tntStatus 0 true 5, by decide +kernel⟩⟩

theorem witness_RailsGuardTheSled : (∃ d : Sled, d.ended = false ∧ d.power.lastSample = some 0 ∧ d.power.below44 = true ∧ d.power.below42 = true ∧ 41999 - 41999 % 10 < 42000 ∧ d.power.low12 = true ∧ 10999 - 10999 % 10 < 11000 ∧ d.power.lowVpp = true ∧ 1749 - 1749 % 10 < 1750) ∧
    (∃ d : Sled, d.ended = false ∧ d.power.highVpp = true ∧ 1850 < 1860 - 1860 % 10) ∧ (∃ d : Sled, d.ended = false ∧ 99 ≤ d.power.stopRun ∧ 39999 - 39999 % 10 < 40000 ∧ d.bell.running = false ∧ bit (d.r32 .pwrStatus) 2 = false) ∧
    (∃ d : Sled, d.ended = true ∧ d.power.goodSince = none ∧ 44500 ≤ 44500 - 44500 % 10 ∧ 44499 - 44499 % 10 < 44500) ∧
    (∃ d : Sled, d.ended = true ∧ d.power.goodSince = some 5) :=
  ⟨⟨{ power := { below44 := true, below42 := true, low12 := true, lowVpp := true, lastSample := some 0 } }, by decide +kernel⟩, ⟨{ power := { highVpp := true } }, by decide +kernel⟩, ⟨{ power := { stopRun := 99 } }, by decide +kernel⟩, ⟨{ ended := true }, by decide +kernel⟩, ⟨{ ended := true, power := { goodSince := some 5 } }, by decide +kernel⟩⟩

theorem witness_ClockStepsAndNvGuard : (∃ d : Sled, d.ended = false ∧ 600 ≤ (d.r32 .pwrClk).toNat ∧ (d.r32 .pwrClk).toNat ≤ 2400 ∧ d.nvGuard = false) ∧
    (∃ d : Sled, d.ended = false ∧ d.nvGuard = true) :=
  ⟨⟨({} : Sled).w32 .pwrClk 2400, by decide +kernel⟩, ⟨({} : Sled).setRegBit .pwrStatus 1 true, by decide +kernel⟩⟩

/-- Two twins in service with their Tether up, and what is in transit. -/
def state2 (mail : List Mail) : State :=
  { sleds := [(0, (({} : Sled).w32 .twnState 4).w32 .twnLinkStatus 0x1002), (1, (({} : Sled).w32 .twnState 4).w32 .twnLinkStatus 0x1002)], mail := mail, rfs := [(0, ({ up := true, bell := { running := true } } : RackFactor).w64 .belCount 1 |>.w32 .twnRkSled 4 0 |>.w32 .twnRkSled 4 1)] }

theorem witness_TetherStatesFollowTheirEvents : (∃ s : State, s.linked 0 = false) ∧ (∃ s : State, s.linked 0 = true ∧ (s.sled 0).tetherUp = true ∧ 15 < fld ((s.sled 0).r32 .twnLinkStatus) 12 8) ∧ (∃ d : Sled, d.tetherUp = false) ∧
    (∃ s : State, (s.sled 0).linkOn = true ∧ (s.sled (twinOf 0)).linkOn = true ∧ (s.sled 0).linkState = 1) ∧ (∃ d : Sled, d.linkState = 3) ∧ (∃ b : BitVec 8, b.toNat ∈ frameTypes) ∧ ∃ b : BitVec 8, b.toNat ∉ frameTypes :=
  ⟨⟨{}, by decide +kernel⟩, ⟨state2 [], by decide +kernel⟩, ⟨{}, by decide +kernel⟩, ⟨{ sleds := [(0, (({} : Sled).w32 .twnLinkStatus 1).w32 .service 1), (1, ({} : Sled).w32 .service 2)] }, by decide +kernel⟩, ⟨({} : Sled).w32 .twnLinkStatus 3, by decide +kernel⟩, ⟨0x12, by decide +kernel⟩, ⟨0xFF, by decide +kernel⟩⟩

/-- A rack whose sleds 0 and 1 are counted, with a Bell that runs. -/
def state3 : State := { state2 [] with rack := { started := true } }

theorem witness_TheRackFactorFollowsItsSleds : (∃ (s : State) (m : Mail) (n : Word64), oldest s (.sled 0) (.rf s.activeRf) (fun b => match b with | .ack _ => true | _ => false) = some m ∧ m.body = .ack n ∧ mget s.rack.awaits (twinOf 0).val = none) ∧
    (∃ (s : State) (m : Mail) (e : Report), oldest s (.sled 0) (.rf s.activeRf) (fun b => match b with | .event _ => true | _ => false) = some m ∧ m.body = .event e) ∧
    (∃ (s : State) (m : Mail), oldest s (.sled 0) (.rf s.activeRf) (fun b => match b with | .dying => true | _ => false) = some m) ∧
    (∃ s : State, let r := s.rf s.activeRf; r.up = true ∧ r.bell.running = true ∧ s.counted 0 = true ∧ mget s.rack.acked 0 ≠ some r.count ∧ bit s.rack.late 0 = false) ∧
    (∃ (s : State) (e : Nat), mget s.rack.pings 0 = some e ∧ bit s.rack.late 0 = true ∧ s.counted 0 = true) ∧ (∃ s : State, s.counted (twinOf 0) = false) ∧ (∃ s : State, s.counted (twinOf 0) = true) ∧
    ∃ s : State, (s.rf s.activeRf).up = true ∧ (s.sled 0).ended = false ∧ s.isolatedPort 0 = false ∧ fld ((s.sled 0).r32 .service) 2 0 ≠ 3 ∧ fld ((s.sled 0).r32 .service) 2 0 ≠ 4 ∧ (s.sled 0).rackState ∈ [0, 1, 2, 6] :=
  ⟨⟨state2 [⟨.sled 0, .rf 0, .ack 1⟩], ⟨.sled 0, .rf 0, .ack 1⟩, 1, by decide +kernel⟩, ⟨state2 [⟨.sled 0, .rf 0, .event .stop⟩], ⟨.sled 0, .rf 0, .event .stop⟩, .stop, by decide +kernel⟩,
    ⟨state2 [⟨.sled 0, .rf 0, .dying⟩], ⟨.sled 0, .rf 0, .dying⟩, by decide +kernel⟩, ⟨state3, by decide +kernel⟩,
    ⟨{ state3 with rack := { started := true, late := 1, pings := [(0, some 5)] } }, 5, by decide +kernel⟩, ⟨{}, by decide +kernel⟩, ⟨state3, by decide +kernel⟩, ⟨{ rfs := [(0, { up := true })] }, by decide +kernel⟩⟩

/-- A sled that asks to join, with firmware of the Rack Factor's major version or the next one. -/
def state7 (next : BitVec 8) (digest : BitVec 384) : State :=
  { state2 [⟨.sled 0, .rf 0, .join ⟨Config.rfFw.1 + next, 0, digest, []⟩⟩] with sleds := [(0, ({} : Sled).w32 .twnState 1)] }

theorem witness_TheRackFactorFollowsItsSleds_join (a : BitVec 8) (b : BitVec 384) :
    oldest (state7 a b) (.sled 0) (.rf 0) (fun b => match b with | .join _ => true | _ => false) = some ⟨.sled 0, .rf 0, .join ⟨Config.rfFw.1 + a, 0, b, []⟩⟩ := by
  simp [oldest, state7, state2]

theorem witness_TheRackFactorFollowsItsSleds_joining : (state7 1 1).isolatedPort 0 = false ∧ ((state7 1 1).rf 0).up = true ∧ ((state7 1 1).sled 0).rackState = 1 ∧ ((state7 1 1).sled 0).ended = false ∧ ((state7 1 1).sled 0).cfgMismatch = false :=
  ⟨by decide +kernel, by decide +kernel, by decide +kernel, by decide +kernel, by decide +kernel⟩

theorem witness_TheRackFactorFollowsItsSleds_join_rules : Config.rfFw.1 + 1 ≠ Config.rfFw.1 ∧ Config.rfFw.1 + 0 = Config.rfFw.1 ∧ (state7 0 1).activeRf = 0 ∧ (1 : BitVec 384) ≠ ((state7 0 1).rf 0).digest ∧ (0 : BitVec 384) = ((state7 0 0).rf 0).digest :=
  ⟨by simp, by simp, by decide +kernel, by decide +kernel, by decide +kernel⟩

theorem witness_RackControlAndRoles : (∃ s : State, (0 : RfId) = s.activeRf) ∧ (∃ s : State, (1 : RfId) ≠ s.activeRf ∧ (s.rf 1).up = true ∧ (s.rf s.activeRf).up = true ∧ (s.rf 1).missed < 2) ∧
    (∃ s : State, (1 : RfId) ≠ s.activeRf ∧ (s.rf 1).up = true ∧ 2 ≤ (s.rf 1).missed) ∧ (∃ s : State, ((s.rf (otherRf s.activeRf)).up && (s.rf s.activeRf).up) = false) ∧ (∃ s : State, (s.sled 0).ended = true) ∧
    (∃ (s : State) (m : Mail) (k : BitVec 256), (s.sled 0).ended = false ∧ s.isolatedPort 0 = false ∧ s.mail.find? (fun m => decide (m.dst = .sled 0) && match m.body with | .cfg _ _ => true | _ => false) = some m ∧ m.body = .cfg false (some k)) ∧
    ∃ (s : State) (m : Mail), (s.sled 0).ended = false ∧ s.isolatedPort 0 = false ∧ s.mail.find? (fun m => decide (m.dst = .sled 0) && match m.body with | .cfg _ _ => true | _ => false) = some m ∧ m.body = .cfg true none ∧ ∀ u, (s.sled 0).active u = false :=
  ⟨⟨{}, by decide +kernel⟩, ⟨{ rfs := [(0, { up := true }), (1, { up := true, missed := 1 })] }, by decide +kernel⟩, ⟨{ rfs := [(0, { up := true }), (1, { up := true, missed := 2 })] }, by decide +kernel⟩, ⟨{}, by decide +kernel⟩,
    ⟨{ sleds := [(0, { ended := true })] }, by decide +kernel⟩, ⟨state2 [⟨.rf 0, .sled 0, .cfg false (some 3)⟩], ⟨.rf 0, .sled 0, .cfg false (some 3)⟩, 3, by decide +kernel⟩,
    ⟨state2 [⟨.rf 0, .sled 0, .cfg true none⟩], ⟨.rf 0, .sled 0, .cfg true none⟩, by decide +kernel⟩⟩

theorem witness_RackControlAndRoles_takeover : ∃ s : State, (1 : RfId) ≠ s.activeRf ∧ (s.rf 1).up = true ∧ (s.rf 1).bell.running = true ∧ 2 ≤ (s.rf 1).missed ∧ (s.rf 1).askedEnd = some 5 :=
  ⟨{ rfs := [(0, { up := true }), (1, { up := true, missed := 2, askedEnd := some 5, bell := { running := true } })] }, by decide +kernel⟩

theorem witness_RackControlAndRoles_release : (∃ s : State, let d := s.sled 15; (fld (d.r32 .service) 2 0 = 1 ∨ fld (d.r32 .service) 2 0 = 2) ∧ (s.rackOf 15 = 0 ∨ s.rackOf 15 = 6)) ∧
    (∃ s : State, ¬(fld ((s.sled 15).r32 .service) 2 0 = 1 ∨ fld ((s.sled 15).r32 .service) 2 0 = 2)) ∧
    ∃ (s : State) (m : Mail), (s.sled 0).ended = false ∧ s.isolatedPort 0 = false ∧ s.mail.find? (fun m => decide (m.dst = .sled 0) && match m.body with | .cfg _ _ => true | _ => false) = some m ∧ m.body = .cfg true none ∧ ∃ u, (s.sled 0).active u = true :=
  ⟨⟨{ sleds := [(15, ({} : Sled).w32 .service 2)], rfs := [(0, ({} : RackFactor).w32 .twnRkSled 6 15)] }, by decide +kernel⟩, ⟨{}, by decide +kernel⟩,
    ⟨{ sleds := [(0, ({} : Sled).setRegBit .tntStatus 0 true 63)], mail := [⟨.rf 0, .sled 0, .cfg true none⟩] }, ⟨.rf 0, .sled 0, .cfg true none⟩, by decide +kernel, by decide +kernel, by decide +kernel, rfl, 63, by decide +kernel⟩⟩

theorem witness_TwinFramesTakeEffect : (∃ s : State, s.linked 0 = false) ∧ ∀ b ∈ [(.page 0 0 ⟨[], []⟩ : MailBody), .snap 0 {}, .commit 0, .resilver 0 0 ⟨[], []⟩, .digest 0 ⟨1, [], false, 0⟩],
      ∃ (s : State) (m : Mail), s.linked 0 = true ∧ s.mail.find? (fun m => decide (m.dst = .sled 0) && decide (m.body = b)) = some m ∧ m.body = b :=
  ⟨⟨{}, by decide +kernel⟩, by
    intro b _
    refine ⟨state2 [⟨.sled 1, .sled 0, b⟩], ⟨.sled 1, .sled 0, b⟩, (show (state2 []).linked 0 = true by decide +kernel), ?_, rfl⟩
    simp [state2]⟩

/-! ### Witnesses: the units of a sled -/

theorem witness_PortersRunTheirEntries : (∃ (d : Sled) (i : Item), (d.unitItems 6 0).head? = some i ∧ bit (d.r32 .prtCtl 0) 0 = true ∧ d.mayRun i.id = true ∧ d.porter 0 = none ∧ i.st = .queued ∧ fld (i.word 0) 7 0 = 1 ∧ d.fenced i.tenant = false) ∧
    (∃ d : Sled, d.porter 0 = none) ∧ (∃ (d : Sled) (r : PorterRun), d.porter 0 = some r ∧ d.mayRun r.item = true ∧ d.portStalls ctx0 r = false) ∧
    (∃ d : Sled, (d.r64 .prtScratchSize 0).toNat < 2 ^ 28) ∧ ∃ d : Sled, (d.r64 .prtScratchSize 0).toNat = 2 ^ 28 :=
  ⟨⟨({ items := [{ id := 0, kind := 6, payload := 1 }], nextItem := 1, bell := { work := true } } : Sled).w32 .prtCtl 1 0, { id := 0, kind := 6, payload := 1 }, by decide +kernel⟩, ⟨{}, by decide +kernel⟩,
    ⟨{ porters := [(0, some { item := 9 })], bell := { work := true } }, { item := 9 }, by decide +kernel⟩, ⟨{}, by decide +kernel⟩, ⟨({} : Sled).w64 .prtScratchSize 0x10000000 0, by decide +kernel⟩⟩

theorem witness_RingControlsAndHolders : (∃ (d : Sled) (v : Word32), d.inflight 15 0 false ≠ 0 ∧ fld v 29 24 ≠ fld (d.r32 .teHqCtl 15 0) 29 24) ∧ (∃ v : Word32, bit v 0 = true ∧ fld v 12 8 = 3) ∧
    (∃ (d : Sled) (v : Word32), d.inflight 15 0 false = 0 ∧ bit v 0 = true ∧ fld v 12 8 = 4 ∧ fld v 20 16 = 16 ∧ (d.r64 .teHqBase 15 0).toNat % (2 ^ 4 * 32) = 0 ∧ bit (d.r32 .teHqCtl 15 0) 0 = false) ∧
    (∃ d : Sled, (d.eng 15).draining = true ∧ (d.eng 15).used = []) ∧ ∃ d : Sled, (d.eng 15).draining = false :=
  ⟨⟨{ engines := [(15, { slots := [(65535, { job := .ray {} })] })] }, 0x1000000, by decide +kernel⟩, ⟨0x301, by decide⟩, ⟨{}, 0x100401, by decide +kernel⟩, ⟨{ engines := [(15, { draining := true })] }, by decide +kernel⟩, ⟨{}, by decide +kernel⟩⟩

/-- A sled whose engine 0 has a job in its last slot. -/
def sled2 (j : Job) : Sled := { engines := [(0, { slots := [(65535, { job := j, item := 9 })] })], bell := { work := true } }

theorem witness_RaysAndProbesAdvance : (∃ d : Sled, d.caravan ctx0 0 = []) ∧ (∃ (d : Sled) (p : Probe), (d.slot 0 65535).job = .probe p ∧ p.ended = none ∧ d.mayRun (d.slot 0 65535).item = true) ∧
    (∃ (d : Sled) (p : Probe), (d.slot 0 65535).job = .probe p ∧ p.ended ≠ none ∧ d.mayRun (d.slot 0 65535).item = true ∧ bit (d.r32 .prbRqStatus 0 0) 0 = false) ∧
    (∃ (d : Sled) (r : Ray) (sp : Susp), (d.slot 0 65535).job = .ray r ∧ r.susp = some sp ∧ sp.recVa = none ∧ bit (d.r32 .teHqStatus 0 0) 0 = false ∧ d.mayRun (d.slot 0 65535).item = true) ∧
    (∃ (d : Sled) (r : Ray), (d.slot 0 65535).job = .ray r ∧ r.ended = some 2 ∧ d.mayRun (d.slot 0 65535).item = true) ∧
    ∃ (d d1 : Sled) (head : Word32), (d.ringHead ctx0 0 0x40000050000 = (d1, some head, none)) ∧ 2 ^ fld (d1.r32 .teHqCtl 0 0) 12 8 ≤ ((d1.ring hitRing 0 0).tail - head).toNat :=
  ⟨⟨{}, by decide +kernel⟩, ⟨sled2 (.probe {}), {}, by decide +kernel⟩, ⟨sled2 (.probe { ended := some 0 }), { ended := some 0 }, by decide +kernel⟩,
    ⟨sled2 (.ray { susp := some ⟨false, {}, none⟩ }), { susp := some ⟨false, {}, none⟩ }, ⟨false, {}, none⟩, by decide +kernel⟩, ⟨sled2 (.ray { ended := some 2 }), { ended := some 2 }, by decide +kernel⟩,
    ⟨{ sled1 0 0 with engines := [(0, { hqs := [(0, { tail := 16 })] })] }.w32 .teHqCtl 0x401 0 0, _, 0, pair_of (by decide +kernel), by decide +kernel⟩⟩

/-! ### Witnesses: raster, compositor and Depots -/

/-- A sled whose RFE 0 has an entry of operation `op`, started when `p` is given. -/
def sled3 (op : Nat) (p : List RfeProg) : Sled :=
  { items := [{ id := 0, kind := 4, payload := BitVec.ofNat 384 (op * 2 ^ 64) }], nextItem := 1, bell := { work := true }, rfes := [(0, { cur := if p = [] then none else some 0, progs := p })] }

/-- The item of that entry. -/
def item3 (op : Nat) : Item := { id := 0, kind := 4, payload := BitVec.ofNat 384 (op * 2 ^ 64) }

theorem witness_RasterEntriesRun : (∀ op ∈ [0, 1, 2, 3, 4], ∃ (d : Sled) (i : Item), (d.rfe 0).cur = none ∧ d.rfeNext 0 = some i ∧ i.oper = op) ∧
    (∀ op ∈ [0, 1, 2, 3, 4], ∃ (d : Sled) (i : Item) (p : RfeProg), (d.rfe 0).cur = some i.id ∧ d.item i.id = some i ∧ i.oper = op ∧ d.mayRun i.id = true ∧ d.prog 0 i.id = some p ∧ p.answer = none) ∧
    (∃ (d d1 : Sled) (i : Item) (f : TFault), (d.rfe 0).cur = some i.id ∧ d.item i.id = some i ∧ d.mayRun i.id = true ∧ d.prog 0 i.id = none ∧ d.uRead ctx0 i.tenant false (i.word 0).toNat 448 = (d1, .fault f)) ∧
    (∃ d : Sled, bit (d.r32 .rfeGrowCtl 63 1) 2 = false) ∧ ∃ d : Sled, bit (d.r32 .rfeGrowCtl 63 1) 2 = true :=
  ⟨fun op h => ⟨sled3 op [], item3 op, (by revert op; decide +kernel)⟩, fun op h => ⟨sled3 op [{}], item3 op, {}, (by revert op; decide +kernel)⟩, ⟨{ sled3 0 [] with rfes := [(0, { cur := some 0 })] }, _, item3 0, ⟨1, 0, 0, 2, 0⟩, by decide +kernel, by decide +kernel, by decide +kernel, by decide +kernel, pair_of (by decide +kernel)⟩,
    ⟨{}, by decide +kernel⟩, ⟨({} : Sled).w32 .rfeGrowCtl 4 63 1, by decide +kernel⟩⟩

/-- A pass of 33 by 33 pixels, two tiles wide and two high. -/
def pass3 : List Byte := [33, 0, 33, 0] ++ List.replicate 444 0

theorem witness_RasterEntriesRun_steps : (∀ op ∈ [0, 4], ∃ (i : Item) (p : RfeProg), i.oper = op ∧ p.tile + 1 = (selected (fld (i.word 2) 7 0)).length * (rEnv ctx0 i p.desc).nTiles) ∧
    (∃ (i : Item) (p : RfeProg), i.oper = 3 ∧ p.off = some 0 ∧ p.tile + 1 < (rEnv ctx0 i p.desc).nTiles) ∧ (∃ p : RfeProg, p.phase = .bin) ∧ ∃ (d : Sled) (i : Item), d.r32 .rfeGrowHandle i.tenant 1 = 0 :=
  ⟨fun op h => ⟨{ kind := 4, payload := BitVec.ofNat 384 (op * 2 ^ 64 + 128 * 2 ^ 128) }, { tile := 3, desc := pass3 }, (by revert op; decide +kernel)⟩,
    ⟨{ kind := 4, payload := BitVec.ofNat 384 (3 * 2 ^ 64) }, { off := some 0, desc := pass3 }, by decide +kernel⟩, ⟨{}, rfl⟩, ⟨{}, {}, by decide +kernel⟩⟩

theorem witness_CompositorOwnsItsPort : (∃ (s : State) (v : Word32), bit v 0 = true ∧ (s.sled 0).active (tenantOf (fld v 29 24)) = false) ∧
    (∃ (s : State) (v : Word32), bit v 0 = true ∧ (s.sled 0).mirror 63 = false ∧ (s.sled 0).active 63 = true ∧ fld v 29 24 = 63 ∧ bit ((s.rf s.activeRf).r32 .rfeVidCtl (fld v 2 1)) 1 = true ∧ fld ((s.rf s.activeRf).r32 .rfeVidCtl (fld v 2 1)) 11 8 = 0) ∧
    (∃ (d : Sled) (i : Item) (p : RfeProg), (d.rfe 0).cur = some i.id ∧ d.item i.id = some i ∧ i.oper = 5 ∧ d.mayRun i.id = true ∧ d.prog 0 i.id = some p) ∧ (∃ d : Sled, (d.rfe 0).cur = none) ∧
    (∃ d : Sled, d.presentDue = false) ∧ (∃ d : Sled, d.presentDue = true ∧ bit (d.r32 .rfeCmpCtl) 0 = true ∧ d.compositor.presented ≠ none) ∧
    ∃ d : Sled, d.presentDue = true ∧ bit (d.r32 .rfeCmpCtl) 0 = true ∧ d.compositor.presented = none ∧ bit (d.r32 .rfeCmpStatus) 1 = true :=
  ⟨⟨{}, 1, by decide +kernel⟩, ⟨{ sleds := [(0, ({} : Sled).setRegBit .tntStatus 0 true 63)], rfs := [(0, ({} : RackFactor).w32 .rfeVidCtl 2 3)] }, 0x3F000007, by decide +kernel⟩,
    ⟨sled3 5 [{}], item3 5, {}, by decide +kernel⟩, ⟨{}, by decide +kernel⟩, ⟨{}, by decide +kernel⟩, ⟨({ bell := { running := true }, compositor := { presented := some ⟨0, 2, 0⟩ } } : Sled).w32 .rfeCmpCtl 1, by decide +kernel⟩,
    ⟨(({ bell := { running := true } } : Sled).w32 .rfeCmpCtl 1).w32 .rfeCmpStatus 2, by decide +kernel⟩⟩

theorem witness_StrideWritesAreChecked : (∃ v : Word32, fld v 15 0 = 0) ∧ (∃ v : Word32, fld v 15 0 ≤ fld v 31 16 ∧ fld v 15 0 ≠ 0) ∧ ∃ v : Word32, ¬(fld v 15 0 = 0 ∨ fld v 15 0 ≤ fld v 31 16) :=
  ⟨⟨0, by decide⟩, ⟨0x00010001, by decide⟩, ⟨0x00010002, by decide⟩⟩

/-- A sled whose last Depot runs the kernel `k`. -/
def sled4 (k : Kernel) : Sled := { depots := [(511, { queue := [k] })], bell := { work := true } }
/-- A started kernel at a word. -/
def kern (w : Word32) : Kernel := { started := true, item := 9, code := [w], wins := [⟨false, true, 32, [(0, 0x010000000000, 32)]⟩] }

theorem witness_DepotInstructionsCompute : (∃ (c : Instr) (f : Kernel → Word32 → Kernel), (c, 0x10, f) ∈ depCompute 0 511) ∧ ∀ w ∈ [(0x40000000 : Word32), 0x88000000, 0x8C000000, 0xE0000000, 0xE4000000, 0xE8000000, 0xEC000000],
      (kern w).code[(kern w).ip]? = some w ∧ depLegal w (kern w).code.length = true ∧ ∃ (d : Sled), d.running 511 = some (kern w) :=
  ⟨⟨_, _, List.Mem.head _⟩, fun w hw => ⟨rfl, (by simp only [List.mem_cons, List.not_mem_nil, or_false] at hw; rcases hw with rfl | rfl | rfl | rfl | rfl | rfl | rfl <;> decide +kernel), sled4 (kern w), rfl⟩⟩

theorem witness_DepotKernelsRunAndEnd : (∃ d : Sled, (d.depot 511).queue = []) ∧ (∃ (d : Sled) (k : Kernel), (d.depot 511).queue.head? = some k ∧ k.started = false ∧ d.mayRun k.item = true ∧ d.fenced k.tenant = false ∧ k.check = 0) ∧
    (∃ (d : Sled) (k : Kernel), (d.depot 511).queue.head? = some k ∧ k.started = false ∧ d.mayRun k.item = true ∧ d.fenced k.tenant = false ∧ k.check ≠ 0 ∧ k.checkRec = some {}) ∧ (∃ d : Sled, d.running 511 = none) ∧
    (∃ (d : Sled) (k : Kernel), d.running 511 = some k ∧ k.code[k.ip]? = none) ∧ (∃ (d : Sled) (k : Kernel) (w : Word32), d.running 511 = some k ∧ k.code[k.ip]? = some w ∧ depLegal w k.code.length = false) ∧
    (∃ (d : Sled) (k : Kernel), d.running 511 = some k ∧ k.code[k.ip]? = some 0 ∧ depLegal 0 k.code.length = true ∧ dOpc 0 = 0) ∧
    (∃ (d : Sled) (k : Kernel) (w : Word32), d.running 511 = some k ∧ k.code[k.ip]? = some w ∧ depLegal w k.code.length = true ∧ dOpc w = 1 ∧ (k.win (dImm w % 8)).len < 33) ∧
    ∃ (d : Sled) (k : Kernel) (w : Word32), d.running 511 = some k ∧ k.code[k.ip]? = some w ∧ depLegal w k.code.length = true ∧ dOpc w = 2 ∧ (k.areg (dA w)).toNat % 32 = 0 ∧ k.inWin (dImm w % 8) 0 32 true = true ∧ d.winWaits k (dImm w % 8) 0 32 = false :=
  ⟨⟨{}, by decide +kernel⟩, ⟨sled4 { item := 9 }, { item := 9 }, by decide +kernel⟩, ⟨sled4 { item := 9, check := 2, checkRec := some {} }, { item := 9, check := 2, checkRec := some {} }, by decide +kernel⟩, ⟨{}, by decide +kernel⟩,
    ⟨sled4 { kern 0 with ip := 1 }, { kern 0 with ip := 1 }, by decide +kernel⟩, ⟨sled4 (kern 0xFC000000), kern 0xFC000000, 0xFC000000, by decide +kernel⟩, ⟨sled4 (kern 0), kern 0, by decide +kernel⟩,
    ⟨sled4 (kern 0x04000000), kern 0x04000000, 0x04000000, by decide +kernel⟩, ⟨sled4 (kern 0x08000000), kern 0x08000000, 0x08000000, by decide +kernel⟩⟩

theorem witness_DepotGathersAndMessages : (∃ (k : Kernel) (w : Word32), k.code[k.ip]? = some w ∧ depLegal w k.code.length = true ∧ dOpc w = 5 ∧ ∃ j, j < 8 ∧ (k.win (dImm w % 8)).len < 4 * (lane (k.vreg (dA w)) j).toNat + 4) ∧
    (∃ (k : Kernel) (w : Word32), k.code[k.ip]? = some w ∧ depLegal w k.code.length = true ∧ dOpc w = 5 ∧ ∀ j, j < 8 → 4 * (lane (k.vreg (dA w)) j).toNat + 4 ≤ (k.win (dImm w % 8)).len) ∧
    (∃ (d : Sled) (k : Kernel) (w : Word32), k.code[k.ip]? = some w ∧ depLegal w k.code.length = true ∧ dOpc w = 6 ∧ (∀ j, j < 8 → k.inWin (dImm w % 8) (4 * (lane (k.vreg (dA w)) j).toNat) 4 true = true) ∧ ∀ j, j < 8 → d.winWaits k (dImm w % 8) (4 * (lane (k.vreg (dA w)) j).toNat) 4 = false) ∧
    (∃ (d : Sled) (k : Kernel) (w : Word32) (l : Launch), d.running 511 = some k ∧ k.code[k.ip]? = some w ∧ depLegal w k.code.length = true ∧ dOpc w = 7 ∧ d.launch k.launch = some l ∧ (k.areg (dA w)).toNat < l.count ∧ (d.depot (l.first + (k.areg (dA w)).toNat)).inbox.length < 16) ∧
    (∃ (d : Sled) (k : Kernel) (w : Word32), d.running 511 = some k ∧ k.code[k.ip]? = some w ∧ depLegal w k.code.length = true ∧ dOpc w = 8 ∧ (d.depot 511).inbox = []) ∧
    ∃ (d : Sled) (g : Msg), d.footpath.find? (fun g => decide (g.dest = 511)) = some g ∧ ∀ k ∈ (d.depot 511).queue, k.launch ≠ g.launch :=
  ⟨⟨{ kern 0x14000000 with v := [(0, 8)] }, 0x14000000, by decide +kernel, by decide +kernel, by decide +kernel, 0, by decide +kernel⟩, ⟨kern 0x14000000, 0x14000000, by decide +kernel⟩, ⟨{}, kern 0x18000000, 0x18000000, by decide +kernel⟩,
    ⟨{ sled4 (kern 0x1C000000) with launches := [⟨0, 0, 511, 1, 9, false, 0, 0, 1, 0⟩] }, kern 0x1C000000, 0x1C000000, ⟨0, 0, 511, 1, 9, false, 0, 0, 1, 0⟩, by decide +kernel⟩, ⟨sled4 (kern 0x20000000), kern 0x20000000, 0x20000000, by decide +kernel⟩,
    ⟨{ footpath := [⟨511, 0, 0, 1, 0, 0, 0⟩] }, ⟨511, 0, 0, 1, 0, 0, 0⟩, by decide +kernel⟩⟩

/-! ### Witnesses: console, Courier, ports -/

theorem witness_ConsoleReceives : (∃ s : State, s.rxOn (.sled 15) = false) ∧ (∃ (s : State) (samples : List Bool), s.rxOn (.rf 1) = true ∧ (65 : Nat) < 2 ^ (s.space (.rf 1)).dbits ∧ samples.getD 0 true = false ∧ (s.space (.rf 1)).parity = 0 ∧
      ∀ i, i ≤ (s.space (.rf 1)).dbits + 1 → samples.getD (16 * i + 8) true = (if i = 0 then false else if i ≤ (s.space (.rf 1)).dbits then (65 : Nat).testBit (i - 1) else true)) ∧
    (∃ s : State, (s.space (.rf 1)).charBits ≤ 10 + 1) ∧ (∃ s : State, 64 ≤ (s.serial (.rf 1)).console.rx.length) ∧ (∃ s : State, (s.serial (.rf 1)).console.rx.length = 63) ∧
    (∃ c : CfgSpace, bit (c.r32 .cslCtl) 1 = true ∧ bit (c.r32 .cslCtl) 2 = true ∧ fld (c.r32 .cslRts) 6 0 ≤ 56) ∧ (∃ c : CfgSpace, bit (c.r32 .cslCtl) 1 = true ∧ bit (c.r32 .cslCtl) 2 = true ∧ 55 < fld (c.r32 .cslRts) 6 0) ∧
    (∃ c : CfgSpace, bit (c.r32 .cslCtl) 1 = true ∧ bit (c.r32 .cslCtl) 2 = false) ∧ ∃ c : CfgSpace, bit (c.r32 .cslCtl) 1 = false :=
  ⟨⟨{ sleds := [(15, { ended := true })] }, by decide +kernel⟩, ⟨{}, (List.range 160).map (fun k => if k < 16 then false else if k < 144 then (65 : Nat).testBit (k / 16 - 1) else true), by decide +kernel⟩, ⟨{}, by decide +kernel⟩,
    ⟨{ rfs := [(1, { serial := { console := { rx := List.replicate 64 0 } } })] }, by decide +kernel⟩, ⟨{ rfs := [(1, { serial := { console := { rx := List.replicate 63 0 } } })] }, by decide +kernel⟩, ⟨({} : CfgSpace).w32 .cslCtl 6, by decide +kernel⟩,
    ⟨({} : CfgSpace).w32 .cslCtl 6, by decide +kernel⟩, ⟨{}, by decide +kernel⟩, ⟨({} : CfgSpace).w32 .cslCtl 0, by decide +kernel⟩⟩

theorem witness_ConsoleSends : (∃ s : State, 64 ≤ (s.serial (.sled 0)).console.tx.length) ∧ (∃ s : State, (s.serial (.sled 0)).console.tx = [65] ∧ s.nodeOn (.sled 0) = true ∧ bit ((s.space (.sled 0)).r32 .cslCtl) 0 = true ∧ bit ((s.space (.sled 0)).r32 .cslCtl) 3 = false) ∧
    (∃ s : State, s.now < (s.serial (.sled 0)).console.brkTill) ∧ (∃ s : State, (s.serial (.sled 0)).console.brkTill ≤ s.now) ∧ (∃ v : Word32, 256 ≤ fld v 19 0) ∧ (∃ v : Word32, fld v 19 0 = 255) ∧
    (∃ s : State, s.nodeOn (.sled 0) = true ∧ s.lineDead (.sled 0) .courier = false) ∧ ∃ s : State, s.nodeOn (.sled 0) = true ∧ s.lineDead (.sled 0) .courier = true :=
  ⟨⟨{ sleds := [(0, { serial := { console := { tx := List.replicate 64 0 } } })] }, by decide +kernel⟩, ⟨{ sleds := [(0, { serial := { console := { tx := [65] } } })] }, by decide +kernel⟩, ⟨{ sleds := [(0, { serial := { console := { brkTill := 1 } } })] }, by decide +kernel⟩,
    ⟨{}, by decide +kernel⟩, ⟨256, by decide⟩, ⟨255, by decide⟩, ⟨{}, by decide +kernel⟩, ⟨{ sleds := [(0, { serial := { courier := { dead := true } } })] }, by decide +kernel⟩⟩

theorem witness_ConsoleSends_break : (∃ (s : State) (b : Nat), let k := (s.serial (.sled 15)).console; k.brkAt = some b ∧ s.now < b ∧ b ≤ max s.now k.busyTill ∧ k.tx = [0x155] ∧ s.nodeOn (.sled 15) = true ∧ bit ((s.space (.sled 15)).r32 .cslCtl) 0 = true ∧
      bit ((s.space (.sled 15)).r32 .cslCtl) 3 = false) ∧
    (∃ s : State, let k := (s.serial (.sled 15)).console; k.brkAt = none ∧ k.brkTill ≤ s.now ∧ k.busyTill ≤ s.now) ∧ ∃ s : State, let k := (s.serial (.sled 15)).console; k.brkAt = none ∧ k.brkTill ≤ s.now ∧ s.now < k.busyTill :=
  ⟨⟨{ sleds := [(15, { serial := { console := { tx := [0x155], busyTill := 9, brkAt := some 9 } } })] }, 9, by decide +kernel⟩, ⟨{}, by decide +kernel⟩, ⟨{ sleds := [(15, { serial := { console := { busyTill := 9 } } })] }, by decide +kernel⟩⟩

theorem witness_ConsoleSends_asleep : ∃ s : State, s.nodeOn (.sled 15) = true ∧ s.lineDead (.sled 15) .console = false ∧ bit ((s.space (.sled 15)).r32 .cslCtl) 1 = true ∧ bit ((s.space (.sled 15)).r32 .cslCtl) 4 = true ∧ bit ((s.space (.sled 15)).r32 .curCtl) 1 = true :=
  ⟨{}, by decide +kernel⟩

/-- A rack whose sled 3 has this Courier block. -/
def state4 (k : Courier) : State := { sleds := [(3, { serial := { courier := k } })] }

theorem witness_CourierSends : (∃ s : State, (s.serial (.sled 3)).courier.driving = none) ∧ (∃ s : State, (s.serial (.sled 3)).courier.driving = some true) ∧
    (∃ (s : State) (f : CurTx), (s.serial (.sled 3)).courier.driving = some false ∧ (s.serial (.sled 3)).courier.tx = [f] ∧ f.bytes.getD 1 0 = 3 ∧ f.bytes.getD 0 0 ≠ 0xFF) ∧
    (∃ (s : State) (f : CurTx), (s.serial (.sled 3)).courier.driving = some false ∧ (s.serial (.sled 3)).courier.tx = [f] ∧ f.bytes.getD 1 0 = 3 ∧ f.bytes.getD 0 0 = 0xFF) ∧
    (∃ s : State, ((s.curNow (.sled 3)).serial (.sled 3)).courier.tx ≠ []) ∧ (∃ s : State, ((s.curNow (.sled 3)).serial (.sled 3)).courier.tx = []) ∧
    (∃ (s : State) (r : CurTx), let k := ((s.curIdle (.sled 3)).serial (.sled 3)).courier; s.curOn (.sled 3) = true ∧ k.dead = false ∧ k.driveFail = false ∧ k.resp = [r] ∧ r.collisions = 15) ∧
    (∃ (s : State) (r : CurTx), let k := ((s.curIdle (.sled 3)).serial (.sled 3)).courier; s.curOn (.sled 3) = true ∧ k.dead = false ∧ k.driveFail = false ∧ k.resp = [r] ∧ r.collisions = 14) ∧
    (∃ (s : State) (f : CurTx), let k := ((s.curIdle (.sled 3)).serial (.sled 3)).courier; s.curOn (.sled 3) = true ∧ k.dead = false ∧ k.driveFail = false ∧ k.resp = [] ∧ k.tx = [f] ∧ f.waitsFrom = none ∧ f.collisions = 14 ∧
      ((s.curIdle (.sled 3)).serial (.sled 3)).console.dead = false) ∧
    (∃ (s : State) (f : CurTx), let k := ((s.curIdle (.sled 3)).serial (.sled 3)).courier; k.tx = [f] ∧ f.waitsFrom = some 5 ∧ f.tries = 8) ∧
    (∃ (s : State) (f : CurTx), let k := ((s.curIdle (.sled 3)).serial (.sled 3)).courier; k.tx = [f] ∧ f.waitsFrom = some 5 ∧ f.tries = 7) ∧
    ∃ s : State, (0 : RfId) = s.activeRf ∧ (s.serial (.rf 0)).courier.dead = true :=
  ⟨⟨{}, by decide +kernel⟩, ⟨state4 { driving := some true, resp := [{ bytes := [1, 2] }] }, by decide +kernel⟩, ⟨state4 { driving := some false, tx := [{ bytes := [5, 3, 0, 0] }] }, { bytes := [5, 3, 0, 0] }, by decide +kernel⟩,
    ⟨state4 { driving := some false, tx := [{ bytes := [0xFF, 3, 0, 0] }] }, { bytes := [0xFF, 3, 0, 0] }, by decide +kernel⟩, ⟨state4 { tx := [{ bytes := [] }] }, by decide +kernel⟩, ⟨{}, by decide +kernel⟩,
    ⟨state4 { resp := [{ bytes := [1, 2], collisions := 15 }] }, { bytes := [1, 2], collisions := 15 }, by decide +kernel⟩, ⟨state4 { resp := [{ bytes := [1, 2], collisions := 14 }] }, { bytes := [1, 2], collisions := 14 }, by decide +kernel⟩,
    ⟨state4 { tx := [{ bytes := [5, 3, 0, 0], collisions := 14 }] }, { bytes := [5, 3, 0, 0], collisions := 14 }, by decide +kernel⟩,
    ⟨state4 { tx := [{ bytes := [5, 3, 0, 0], tries := 8, waitsFrom := some 5 }] }, { bytes := [5, 3, 0, 0], tries := 8, waitsFrom := some 5 }, by decide +kernel⟩,
    ⟨state4 { tx := [{ bytes := [5, 3, 0, 0], tries := 7, waitsFrom := some 5 }] }, { bytes := [5, 3, 0, 0], tries := 7, waitsFrom := some 5 }, by decide +kernel⟩, ⟨{ rfs := [(0, { serial := { courier := { dead := true } } })] }, by decide +kernel⟩⟩

theorem witness_CourierReceives : (∃ s : State, (s.serial (.sled 3)).courier.dead = true) ∧ (∃ s : State, s.curOn (.sled 3) = true ∧ (s.serial (.sled 3)).courier.dead = false ∧ (s.serial (.sled 3)).courier.partRx = []) ∧ (∃ s : State, (s.serial (.sled 3)).courier.partRx ≠ []) ∧
    (∀ y ∈ [(1 : Byte), 2, 3, 4], ∃ (s : State) (f : CourierFrame), s.curTakes (.sled 3) f = true ∧ f.type = y ∧ f.payload.length ≤ 32 ∧ f.dst ≠ 0xFF) ∧
    (∃ (s : State) (f : CourierFrame), s.curTakes (.sled 3) f = true ∧ f.type = 3 ∧ mget (s.serial (.sled 3)).courier.lastSeq f.src.toNat = some f.seq) ∧
    (∃ s : State, ((List.range 4).find? fun i => !bit (s.serial (.sled 3)).courier.full i) = none) ∧ ∃ s : State, ((List.range 4).find? fun i => !bit (s.serial (.sled 3)).courier.full i) = some 3 :=
  ⟨⟨state4 { dead := true }, by decide +kernel⟩, ⟨{}, by decide +kernel⟩, ⟨state4 { partRx := [0x7E] }, by decide +kernel⟩, fun y _ => ⟨{}, ⟨1, 3, y, 0, []⟩, (show ({} : State).curTakes (.sled 3) ⟨1, 3, 1, 0, []⟩ = true by decide +kernel), rfl, Nat.zero_le _, (show (3 : Byte) ≠ 0xFF by decide)⟩,
    ⟨state4 { lastSeq := [(1, some 9)] }, ⟨1, 3, 3, 9, []⟩, by decide +kernel⟩, ⟨state4 { full := 15 }, by decide +kernel⟩, ⟨state4 { full := 7 }, by decide +kernel⟩⟩

/-- The samples of a character of the Courier line. -/
def sampled8 (b : Byte) : List Bool := (List.range 160).map fun k => if k < 16 then false else if k < 144 then bit b (k / 16 - 1) else true

theorem witness_CourierReceives_frame : ∃ (s : State) (f : CourierFrame) (cs : List (List Bool)), let line := lineBytes f.src.toNat (frameTail f)
    let reads := fun (x : List Bool) (b : Byte) => x.getD 0 true = false ∧ x.getD 8 true = false ∧ (∀ k, k < 8 → x.getD (16 * (k + 1) + 8) true = bit b k) ∧ x.getD 152 true = true;
    s.curOn (.sled 3) = true ∧ (s.serial (.sled 3)).courier.dead = false ∧ s.switchOpen (.sled 3) = false ∧ ((s.curIdle (.sled 3)).serial (.sled 3)).courier.partRx = [] ∧ f.payload.length ≤ 32 ∧ 1 ≤ f.type.toNat ∧ f.type.toNat ≤ 4 ∧
      cs.length = line.length ∧ ∀ j, j < line.length → reads (cs.getD j []) (line.getD j 0) :=
  ⟨{}, ⟨30, 3, 3, 0xA5, [0x81]⟩, (lineBytes 30 (frameTail ⟨30, 3, 3, 0xA5, [0x81]⟩)).map sampled8, by decide +kernel⟩

theorem witness_CourierReceives_cut_off : (∃ s : State, s.switchOpen (.sled 15) = true) ∧ ∃ s : State, s.curOn (.sled 3) = true ∧ s.onLine 15 = false :=
  ⟨⟨{ rfs := [(0, ({} : RackFactor).w32 .curRkIso 0x8000)] }, by decide +kernel⟩, ⟨{ rfs := [(0, ({} : RackFactor).w32 .curRkIso 0x8000)] }, by decide +kernel⟩⟩

/-- Data port 7 bound to tenant 0 on sled 0, with rings of 16 descriptors: the header at 2^42 + 0x50000, the ring at 2^43. -/
def state5 : State :=
  let d := sled0 0 {} false
  let d : Sled := ({ d with cache := mset (mset (mset d.cache 1024 (some { data := 0x20001#512 + (0x30001#512 <<< 64) + (0x70001#512 <<< 128) })) 0x1C00 (some { data := 0x13 })) 5120 (some { data := 1#512 <<< 64 }) } : Sled).w32 .twnState 4
  { sleds := [(0, { d with cache := mset d.cache 0 (some { data := 0x40000060000#512 + (59#512 <<< 64) }) })]
    rack := { ports := [(7, { ctl := 1 + 4 * 2 ^ 20 + 4 * 2 ^ 25, rxRing := 0x80000000000, rxHdr := 0x40000050000, txRing := 0x80000000000, txHdr := 0x40000050000 })] } }

theorem witness_DataPortsMoveFrames : (∃ s : State, bit (s.port 7).ctl 0 = false) ∧ ∃ (s : State) (d1 : Sled), let k := s.port 7; bit k.ctl 0 = true ∧ k.rx.stalled = false ∧ k.tx.stalled = false ∧ s.inService k.sled = true ∧
      dpNext (s.ctx 0) (s.sled 0) k false = (d1, .slot 0 0x80000000000 0x40000060000 59) ∧ 59 < (64 : Nat) - 4 :=
  ⟨⟨{}, by decide +kernel⟩, state5, _, by decide +kernel, by decide +kernel, by decide +kernel, by decide +kernel, pair_of (by decide +kernel), by decide⟩

theorem witness_VideoPortsSendFrames : (∃ (s : State) (v : Word32), let old := (s.rf s.activeRf).r32 .rfeVidCtl 3; bit old 0 = true ∧ setBit old 0 false ≠ setBit v 0 false) ∧
    (∃ (s : State) (v : Word32), let r := s.rf s.activeRf; bit (r.r32 .rfeVidCtl 3) 0 = false ∧ bit v 0 = true ∧ fld (r.r32 .rfeVidRaster 3) 15 0 = 4096 ∧ fld (r.r32 .rfeVidRaster 3) 31 16 = 2160 ∧ 96 ≤ fld (r.r32 .rfeVidRtp 3) 6 0 ∧ bit v 1 = true) ∧
    (∃ s : State, (s.video 3).frame = none) ∧ (∃ (s : State) (f : VidFrame), (s.video 3).frame = some f ∧ f.sent + 1 < fld f.raster 31 16 * vidPerLine f.ctl (fld f.raster 15 0)) ∧ (∃ s : State, (s.sled 0).presentDue = false) ∧
    ∃ s : State, (s.sled 0).presentDue = true ∧ bit ((s.rf s.activeRf).r32 .rfeVidCtl 3) 0 = true ∧ bit ((s.rf s.activeRf).r32 .rfeVidCtl 3) 1 = true ∧ fld ((s.rf s.activeRf).r32 .rfeVidCtl 3) 11 8 = 0 :=
  ⟨⟨{ rfs := [(0, ({} : RackFactor).w32 .rfeVidCtl 3 3)] }, 1, by decide +kernel⟩, ⟨{ rfs := [(0, (({} : RackFactor).w32 .rfeVidRaster 0x08701000 3).w32 .rfeVidRtp 96 3)] }, 3, by decide +kernel⟩, ⟨{}, by decide +kernel⟩,
    ⟨{ rack := { videos := [(3, { frame := some ⟨0, 0, none, 3, 0x00020002, 0, 0, 0, 0, 1⟩ })] } }, ⟨0, 0, none, 3, 0x00020002, 0, 0, 0, 0, 1⟩, by decide +kernel⟩, ⟨{}, by decide +kernel⟩,
    ⟨{ sleds := [(0, { bell := { running := true } })], rfs := [(0, ({} : RackFactor).w32 .rfeVidCtl 3 3)] }, by decide +kernel⟩⟩

/-! ### Witnesses: start-up, the TAP and fuses; the whole machine -/

theorem witness_SledStartsUp : (∃ d : Sled, d.ended = true) ∧ (∃ (d : Sled) (y : SelfTest), d.ended = false ∧ fld (d.r32 .service) 2 0 = 0 ∧ fld (d.r32 .pwrStatus) 1 0 = 0 ∧ y.badRow = some 127) ∧
    (∃ (d : Sled) (y : SelfTest), d.ended = false ∧ fld (d.r32 .service) 2 0 = 0 ∧ fld (d.r32 .pwrStatus) 1 0 = 0 ∧ y.badRow = none ∧ ¬(y.mode144 = true ∨ y.mode114 = true)) ∧
    (∃ d : Sled, d.ended = false ∧ d.rackState = 1) ∧ (∃ s : State, (s.sled 0).ended = false ∧ fld ((s.sled 0).r32 .service) 2 0 = 4 ∧ s.isolatedPort 0 = false ∧ (s.sled 0).nvGuard = false) ∧
    ∃ s : State, (s.sled 0).ended = false ∧ fld ((s.sled 0).r32 .service) 2 0 = 4 ∧ s.isolatedPort 0 = false ∧ (s.sled 0).nvGuard = true :=
  ⟨⟨{ ended := true }, by decide +kernel⟩, ⟨{}, { badRow := some 127, sfdpOk := true, mode144 := true, mode114 := false, coreFail := 0, schedFail := 0, l2Fail := 0, porterFail := 0, teFail := 0, rfeFail := 0, depotFail := 0, bankFail := 0, stackFail := 0, ioFail := false, portOk := true, tetherOk := true }, by decide +kernel⟩, ⟨{}, { badRow := none, sfdpOk := true, mode144 := false, mode114 := false, coreFail := 0, schedFail := 0, l2Fail := 0, porterFail := 0, teFail := 0, rfeFail := 0, depotFail := 0, bankFail := 0, stackFail := 0, ioFail := false, portOk := true, tetherOk := true }, by decide +kernel⟩, ⟨({} : Sled).w32 .twnState 1, by decide +kernel⟩,
    ⟨{ sleds := [(0, ({} : Sled).w32 .service 4)] }, by decide +kernel⟩, ⟨{ sleds := [(0, (({} : Sled).w32 .service 4).setRegBit .pwrStatus 1 true)] }, by decide +kernel⟩⟩

/-- A self-test that found nothing. -/
def goodTest : SelfTest := { badRow := none, sfdpOk := true, mode144 := true, mode114 := false, coreFail := 0, schedFail := 0, l2Fail := 0, porterFail := 0, teFail := 0, rfeFail := 0, depotFail := 0, bankFail := 0, stackFail := 0, ioFail := false, portOk := true, tetherOk := true }

theorem witness_SledStartsUp_waits : (∃ d : Sled, d.ended = false ∧ fld (d.r32 .service) 2 0 = 0 ∧ d.boot.waits = some goodTest ∧ fld (d.r32 .pwrStatus) 1 0 ≠ 0) ∧
    ∃ d : Sled, d.ended = false ∧ fld (d.r32 .service) 2 0 = 0 ∧ d.boot.waits = some goodTest ∧ fld (d.r32 .pwrStatus) 1 0 = 0 :=
  ⟨⟨({ boot := { waits := some goodTest } } : Sled).setRegBit .pwrStatus 1 true, by decide +kernel⟩, ⟨{ boot := { waits := some goodTest } }, by decide +kernel⟩⟩

theorem witness_RackStartsUp_peer : ∃ s : State, (s.rf 1).up = true ∧ bit ((s.rf 1).r32 .twnRkRole) 1 = false ∧ (s.rf 1).peer = true :=
  ⟨{ rfs := [(1, { up := true, peer := true })] }, by decide +kernel⟩

theorem witness_RackStartsUp : (∃ s : State, (s.rf 1).up = false) ∧ (∃ s : State, let r := s.rf 0; let o := s.rf (otherRf 0); r.up = true ∧ bit (r.r32 .twnRkRole) 1 = false ∧ o.up = true ∧ bit (o.r32 .twnRkRole) 1 = false ∧ o.bootAt = r.bootAt + 10000000) ∧
    (∃ s : State, let r := s.rf 0; let o := s.rf (otherRf 0); r.up = true ∧ bit (r.r32 .twnRkRole) 1 = false ∧ o.up = false) ∧ (∃ s : State, (s.rf s.activeRf).up = false) ∧
    ∃ s : State, (s.rf s.activeRf).up = true ∧ bit ((s.rf s.activeRf).r32 .twnRkRole) 1 = true ∧ s.rack.started = false :=
  ⟨⟨{}, by decide +kernel⟩, ⟨{ rfs := [(0, { up := true }), (1, { up := true, bootAt := 10000000 })] }, by decide +kernel⟩, ⟨{ rfs := [(0, { up := true })] }, by decide +kernel⟩, ⟨{}, by decide +kernel⟩,
    ⟨{ rfs := [(0, ({ up := true } : RackFactor).w32 .twnRkRole 2)] }, by decide +kernel⟩⟩

theorem witness_TapInstructions : (∃ d : Sled, (d.fuseNow ctx0).debugClosed = true) ∧
    (∃ d : Sled, let e := d.fuseNow ctx0; e.debugClosed = false ∧ bit (e.r32 .fusDebug) 0 = false) ∧
    (∃ d : Sled, let e := d.fuseNow ctx0; e.debugClosed = false ∧ bit (e.r32 .fusDebug) 0 = true ∧ e.coreUp 95 = true) :=
  ⟨⟨({} : Sled).w32 .fusRow 0x10 48, by decide +kernel⟩, ⟨{}, by decide +kernel⟩, ⟨({} : Sled).w32 .fusDebug 1, by decide +kernel⟩⟩

theorem witness_FusesAreProgrammed : (∃ d : Sled, (d.fuseNow ctx0).fuse = none ∧ fieldMask (fld (d.r32 .fusProg) 6 0) = 0) ∧
    (∃ d : Sled, (d.fuseNow ctx0).fuse = none ∧ fieldMask (fld (d.r32 .fusProg) 6 0) ≠ 0 ∧ d.r32 .fusProgMask &&& ~~~fieldMask (fld (d.r32 .fusProg) 6 0) = 0 ∧ (d.fuseNow ctx0).nvGuard = false) ∧
    (∃ d : Sled, (d.fuseNow ctx0).fuse = none ∧ fieldMask (fld (d.r32 .fusProg) 6 0) ≠ 0 ∧ (d.fuseNow ctx0).nvGuard = true) ∧
    (∃ d : Sled, (d.fuse.map FuseReq.cut) = some true ∧ d.nvGuard = false) :=
  ⟨⟨({} : Sled).w32 .fusProg 47, by decide +kernel⟩, ⟨(({} : Sled).w32 .fusProg 48).w32 .fusProgMask 0x70, by decide +kernel⟩, ⟨(({} : Sled).w32 .fusProg 125).setRegBit .pwrStatus 1 true, by decide +kernel⟩, ⟨{ fuse := some { row := 48, bits := [4], cut := true } }, by decide +kernel⟩⟩

theorem witness_Inv : ∃ s t : State, Inv s ∧ step s = .next t :=
  ⟨State.reset, _, ⟨rfl, by simp [State.reset], rfl, by simp [State.reset], fun _ => rfl⟩, rfl⟩

theorem witness_CommandsKeepTheirPlace : (∃ s t : State, InOneSled .factor 0 0 0 0 0 0 0 0 0 [] (.leaseExpiry 0) ∧ exec (.leaseExpiry 0) s = .next t) ∧ ∃ s t : State, OnTheRack .factor 0 0 0 0 0 true (.drain .factor 0) ∧ exec (.drain .factor 0) s = .next t :=
  ⟨⟨{}, _, List.Mem.head _, rfl⟩, ⟨{}, _, List.Mem.head _, rfl⟩⟩

theorem witness_CommandsKeepTheirPlace_twins : (∃ s t : State, TenantWrites .rackFactor 14 63 0 0 (.qResume .rackFactor 14 63 0) ∧ exec (.qResume .rackFactor 14 63 0) s = .next t ∧ s.bothTwins .rackFactor 14 63 = false) ∧
    (∃ s : State, s.bothTwins .rackFactor 14 63 = true) ∧ (∃ s t : State, exec (.release .factor 0) s = .next t) ∧ ∃ s t : State, exec (.rackFactorBoot 1) s = .next t ∧ (s.rf 1).peer = false :=
  ⟨⟨{}, _, by simp [TenantWrites], rfl, by decide +kernel⟩, witness_TenantRegistersAndResets_both_twins.imp fun _ h => h.1, ⟨{}, _, rfl⟩, ⟨{}, _, rfl, by decide +kernel⟩⟩

/-! ### Witnesses: accesses that complete -/

/-- A translated access reaches memory, from its parts. -/
theorem reaches_of {s1 : State} {a : Acc} {align va pos len off : Nat} (l : Leaf) (h0 : va % align = 0 ∧ va % 2 ^ 16 + len ≤ 2 ^ 16) (hw : ((s1.sled 0).walk (s1.ctx 0) (s1.core 0 0).tenant va).2 = .leaf l)
    (h : permFault (bit (s1.core 0 0).state 0) a l = none ∧ ((s1.sled 0).walk (s1.ctx 0) (s1.core 0 0).tenant va).1.target (s1.ctx 0) l.pa = .mem off ∧
      (s1.setSled 0 ((s1.sled 0).walk (s1.ctx 0) (s1.core 0 0).tenant va).1).accessWaits 0 0 [⟨l.pa, pos, len, va⟩] = false ∧ (a = .store → (s1.core 0 0).remotePending = false)) :
    Reaches s1 0 0 a align va pos len ((s1.sled 0).walk (s1.ctx 0) (s1.core 0 0).tenant va).1 off :=
  ⟨h0.1, h0.2, l, pair_of hw, h.1, h.2.1, h.2.2.1, h.2.2.2⟩

theorem witness_ScalarAccessesComplete_load : ∃ (s s1 : State) (i : IWord) (d : Sled) (off : Nat), Issues s 0 0 .ld i s1 ∧ Reaches s1 0 0 .load (tWidth (iT i) / 8) ((s1.core 0 0).address i false) 0 (tWidth (iT i) / 8) d off :=
  ⟨state0 (asm 8 0 3 1 0 0 0 0 0xFFF8) core0, _, asm 8 0 3 1 0 0 0 0 0xFFF8, _, 0x5FFF8, issues_of (by decide +kernel), reaches_of ⟨0x5FFF8, 2, false⟩ (by decide +kernel) (by decide +kernel) (by decide +kernel)⟩

theorem witness_ScalarAccessesComplete_store : ∃ (s s1 : State) (i : IWord) (d : Sled) (off : Nat), Issues s 0 0 .st i s1 ∧ Reaches s1 0 0 .store (tWidth (iT i) / 8) ((s1.core 0 0).address i false) 0 (tWidth (iT i) / 8) d off :=
  ⟨state0 (asm 8 1 0 1 2 0 2 0 0xFFFF) core0, _, asm 8 1 0 1 2 0 2 0 0xFFFF, _, 0x5FFFF, issues_of (by decide +kernel), reaches_of ⟨0x5FFFF, 2, false⟩ (by decide +kernel) (by decide +kernel) (by decide +kernel)⟩

theorem witness_ScalarAccessesComplete_atomic : ∃ (s s1 : State) (i : IWord) (d : Sled) (off : Nat), Issues s 0 0 .amocas i s1 ∧ Reaches s1 0 0 .store (tWidth (iT i) / 8) ((s1.core 0 0).address i false) 0 (tWidth (iT i) / 8) d off ∧
    ∀ j, j < tWidth (iT i) / 8 → d.badByte (off + j) = false :=
  ⟨state0 (asm 9 7 3 1 2 4 1 0 4) core0, _, asm 9 7 3 1 2 4 1 0 4, _, 0x50004, issues_of (by decide +kernel), reaches_of ⟨0x50004, 2, false⟩ (by decide +kernel) (by decide +kernel) (by decide +kernel), by decide +kernel⟩

theorem witness_WideAccessesComplete_all : ∃ (s s1 : State) (i : IWord) (d : Sled) (off : Nat), Issues s 0 0 .wld i s1 ∧ (∀ e, e < 2048 / tWidth (iT i) → elemOn ((s1.core 0 0).pred i) (tWidth (iT i)) e = true) ∧
    Reaches s1 0 0 .load (tWidth (iT i) / 8) ((s1.core 0 0).address i false) 0 256 d off :=
  ⟨state0 (asm 0x14 0 3 1 0 0 0 0 0) core0, _, asm 0x14 0 3 1 0 0 0 0 0, _, 0x50000, issues_of (by decide +kernel), by decide +kernel, reaches_of ⟨0x50000, 2, false⟩ (by decide +kernel) (by decide +kernel) (by decide +kernel)⟩

theorem witness_WideAccessesComplete_none : (∃ (s s1 : State) (i : IWord), Issues s 0 0 .wst i s1 ∧ ∀ e, e < 2048 / tWidth (iT i) → elemOn ((s1.core 0 0).pred i) (tWidth (iT i)) e = false) ∧
    ∃ (s s1 : State) (i : IWord), Issues s 0 0 .tld i s1 ∧ ∀ r, r < 16 → bit ((s1.core 0 0).pred i) r = false :=
  ⟨⟨state0 (asm 0x14 1 0 1 2 0 0 0 0 ||| (1 <<< 44)) core0, _, asm 0x14 1 0 1 2 0 0 0 0 ||| (1 <<< 44), issues_of (by decide +kernel), by decide +kernel⟩,
    ⟨state0 (asm 0x18 9 3 1 0 0 3 0 0 ||| (1 <<< 44)) core0, _, asm 0x18 9 3 1 0 0 3 0 0 ||| (1 <<< 44), issues_of (by decide +kernel), by decide +kernel⟩⟩

theorem witness_WideAccessesComplete_one : ∃ (s s1 : State) (i : IWord) (d : Sled) (off : Nat), Issues s 0 0 .wldx i s1 ∧ ((s1.core 0 0).indexSpans i).length = 1 ∧ let one := ((s1.core 0 0).indexSpans i).headD (0, 0, 0)
    Reaches s1 0 0 .load (tWidth (iT i) / 8) one.1 one.2.1 one.2.2 d off :=
  ⟨state0 (asm 0x14 2 3 1 2 0 1 0 0 ||| (1 <<< 40)) { core0 with p := [(1, 16)] }, _, asm 0x14 2 3 1 2 0 1 0 0 ||| (1 <<< 40), _, 0x50000, issues_of (by decide +kernel), by decide +kernel, reaches_of ⟨0x50000, 2, false⟩ (by decide +kernel) (by decide +kernel) (by decide +kernel)⟩

theorem witness_TenantCommandsComplete : (∃ v : Word32, fld v 5 4 ≠ 3 ∧ bit v 0 = false) ∧ (∃ (d : Sled) (v : Word32), fld v 5 4 ≠ 3 ∧ bit v 0 = true ∧ (allTenants.filter fun o => decide (o ≠ 63) && bit (d.r32 .tntCtl o) 0).length = 15) ∧
    ∃ d : Sled, (d.ten 63).toll ≠ 0 ∧ (d.ten 63).tolled = false ∧ d.active 63 = true ∧ d.bell.settle ∉ [1, 2, 3] ∧ 1000 * (d.ten 63).toll.toNat ≤ (d.r64 .ledCur 63).toNat :=
  ⟨⟨0, by decide⟩, ⟨(List.range 15).foldl (fun (d : Sled) i => d.w32 .tntCtl 1 i) {}, 1, by decide +kernel⟩, ⟨(({ tenants := [(63, { toll := 2 })] } : Sled).setRegBit .tntStatus 0 true 63).w64 .ledCur 2000 63, by decide +kernel⟩⟩

/-! ### Witnesses: arithmetic -/

theorem witness_IntegerArithmeticFollowsBitVectors : (∃ y : BitVec 8, y = 0) ∧ (∃ y : BitVec 8, y ≠ 0) ∧ ∃ x y : BitVec 8, x = BitVec.intMin 8 ∧ y = BitVec.allOnes 8 :=
  ⟨⟨0, rfl⟩, ⟨1, by decide⟩, ⟨_, _, rfl, rfl⟩⟩

theorem witness_ConversionToIntegerSaturates : ((200 : Int) > intMax 8 false) ∧ (-(129 : Int) < intMin 8 false) ∧ (intMin 8 false ≤ -(128 : Int) ∧ -(128 : Int) ≤ intMax 8 false) ∧ (roundAt .near true ⟨257, -1, false⟩ 0) = (128, true) :=
  by decide +kernel

theorem witness_NanResultsAreCanonical : ∃ (f : Fmt) (a b : Nat), f ∈ [.fp32, .fp16, .bf16] ∧ anyNan [f.unpack a] = true ∧ f.unpack a = .nan true ∧ anyNan [f.unpack b] = false ∧ badMul (f.unpack 0x7F800000) (f.unpack 0) = true :=
  ⟨.fp32, 0x7F800001, 0, by decide +kernel⟩

end Sys2Proof.Tests
end

section
/-! Config space accesses (00_scope.md R3 to R16): one rule for each operation on a node's config space, the access paths by the kind of word
at the offset, and the obligation on config registers and pairs. -/
namespace Sys2Proof.Machine

/-! ### A node's config space -/

@[simp] theorem State.space_onSpace (s : State) (n : Node) (f : CfgSpace → CfgSpace) : (s.onSpace n f).space n = f (s.space n) := by
  cases n with
  | sled sl => simp [State.space, State.onSpace, State.onSled]
  | rf b => simp [State.space, State.onSpace]

@[simp] theorem State.space_answer (p : State × Reply) (n : Node) : (State.answer p).space n = p.1.space n := by
  cases n <;> rfl

@[simp] theorem State.reply_answer (p : State × Reply) : (State.answer p).reply = p.2 := rfl

theorem twinOf_ne (sl : SledId) : twinOf sl ≠ sl := by
  revert sl; decide

/-! ### Words and pairs of registers -/

/-- A read of another key than the one written, whatever the two keys' unlisted values are. -/
theorem mgetD_msetD_ne {α : Type} [DecidableEq α] (d d' : α) (m : Map α) {k j : Nat} (v : α) (h : j ≠ k) : mgetD d' (msetD d m k v) j = mgetD d' m j := by
  unfold msetD
  split
  · rw [mgetD_mdrop, if_neg h]
  · rw [mgetD_mins, if_neg h]

theorem CfgSpace.half_setHalf (c : CfgSpace) (r : Reg) (i j : Nat) (hi hi' : Bool) (v : Word32) :
    (c.setHalf r i j hi v).half r i j hi' = if hi' = hi then v else c.half r i j hi' := by
  by_cases h : hi' = hi
  · subst h
    simp [CfgSpace.half, CfgSpace.setHalf, mgetD_msetD]
  · have other : (regOff r i j + if hi' then 4 else 0) ≠ regOff r i j + if hi then 4 else 0 := by
      cases hi <;> cases hi' <;> simp at h ⊢
    rw [if_neg h]
    exact mgetD_msetD_ne _ _ c.words v other

@[simp] theorem CfgSpace.r32_w32 (c : CfgSpace) (r : Reg) (i j : Nat) (v : Word32) : (c.w32 r v i j).r32 r i j = v := by
  simp [CfgSpace.r32, CfgSpace.w32, CfgSpace.half_setHalf]

theorem append_halves (v : Word64) : ((v >>> 32).truncate 32 : Word32) ++ (v.truncate 32 : Word32) = v := by
  refine BitVec.eq_of_getLsbD_eq fun k hk => ?_
  rw [BitVec.getLsbD_append]
  split
  · next h => simp [h]
  · next h => simp [show 32 + (k - 32) = k by omega, show k - 32 < 32 by omega]

@[simp] theorem CfgSpace.r64_w64 (c : CfgSpace) (r : Reg) (i j : Nat) (v : Word64) : (c.w64 r v i j).r64 r i j = v := by
  simpa [CfgSpace.r64, CfgSpace.w64, CfgSpace.half_setHalf] using append_halves v

/-! ### Shadows and held writes (R8, R9) -/

/-- Keep the high word of a pair for a requester (R8). -/
def CfgSpace.latch (c : CfgSpace) (who : Requester) (pair : Nat) (k : Word32) : CfgSpace :=
  { c.dropShadow who pair with shadows := (c.dropShadow who pair).shadows ++ [(who, pair, k)] }

/-- Hold a requester's write of the low word of a pair (R9). -/
def CfgSpace.hold (c : CfgSpace) (who : Requester) (pair : Nat) (v : Word32) : CfgSpace :=
  { c.dropHeld pair with held := (c.dropHeld pair).held ++ [(pair, who, v)] }

@[simp] theorem CfgSpace.words_dropShadow (c : CfgSpace) (who : Requester) (pair : Nat) : (c.dropShadow who pair).words = c.words := rfl
@[simp] theorem CfgSpace.words_latch (c : CfgSpace) (who : Requester) (pair : Nat) (k : Word32) : (c.latch who pair k).words = c.words := rfl
@[simp] theorem CfgSpace.words_hold (c : CfgSpace) (who : Requester) (pair : Nat) (v : Word32) : (c.hold who pair v).words = c.words := rfl
@[simp] theorem CfgSpace.r64_dropHeld (c : CfgSpace) (pair : Nat) (r : Reg) (i j : Nat) : (c.dropHeld pair).r64 r i j = c.r64 r i j := rfl

@[simp] theorem CfgSpace.shadow_dropShadow (c : CfgSpace) (who : Requester) (pair : Nat) : (c.dropShadow who pair).shadow who pair = none := by
  simp only [CfgSpace.shadow, CfgSpace.dropShadow, Option.map_eq_none_iff, List.find?_eq_none, List.mem_filter]
  rintro e ⟨-, he⟩
  simpa [or_iff_not_imp_left] using he

theorem CfgSpace.shadow_dropShadow_ne (c : CfgSpace) (who w : Requester) (pair p : Nat) (h : w ≠ who ∨ p ≠ pair) :
    (c.dropShadow who pair).shadow w p = c.shadow w p := by
  have other : ∀ e : Requester × Nat × Word32, ((!decide (e.1 = who ∧ e.2.1 = pair)) = true ∧ decide (e.1 = w ∧ e.2.1 = p) = true) ↔ (e.1 = w ∧ e.2.1 = p) := by
    grind
  simp only [CfgSpace.shadow, CfgSpace.dropShadow, List.find?_filter, other]

@[simp] theorem CfgSpace.shadow_latch (c : CfgSpace) (who : Requester) (pair : Nat) (k : Word32) : (c.latch who pair k).shadow who pair = some k := by
  have none_left := c.shadow_dropShadow who pair
  simp only [CfgSpace.shadow, Option.map_eq_none_iff] at none_left
  simp only [CfgSpace.shadow, CfgSpace.latch, List.find?_append, none_left]
  simp

theorem CfgSpace.shadow_latch_ne (c : CfgSpace) (who w : Requester) (pair p : Nat) (k : Word32) (h : w ≠ who ∨ p ≠ pair) :
    (c.latch who pair k).shadow w p = c.shadow w p := by
  have hne : ¬(who = w ∧ pair = p) := by grind
  rw [← c.shadow_dropShadow_ne who w pair p h]
  simp [CfgSpace.shadow, CfgSpace.latch, List.find?_append, hne]

@[simp] theorem CfgSpace.heldAt_dropHeld (c : CfgSpace) (pair : Nat) : (c.dropHeld pair).heldAt pair = none := by
  simp [CfgSpace.heldAt, CfgSpace.dropHeld, List.find?_eq_none]

@[simp] theorem CfgSpace.heldAt_hold (c : CfgSpace) (who : Requester) (pair : Nat) (v : Word32) : (c.hold who pair v).heldAt pair = some (who, v) := by
  have none_left := c.heldAt_dropHeld pair
  simp only [CfgSpace.heldAt, Option.map_eq_none_iff] at none_left
  simp [CfgSpace.heldAt, CfgSpace.hold, List.find?_append, none_left]

/-! ### Writes under the access codes (Table 0.2) -/

@[simp] theorem CfgSpace.heldAt_codeWrite (c : CfgSpace) (now : Nat) (r : Reg) (i j : Nat) (v : Word64) (pair : Nat) :
    (c.codeWrite now r i j v).heldAt pair = c.heldAt pair := by
  cases hw : (regInfo r).wide
  · simp only [CfgSpace.codeWrite, hw, Bool.false_eq_true, ↓reduceIte]; rfl
  · simp only [CfgSpace.codeWrite, hw, ↓reduceIte]; rfl

/-- A 32-bit register after a write: its RW bits come from the value, and its W1C bits written as 1 that hardware does not set now are cleared. -/
theorem CfgSpace.r32_codeWrite (c : CfgSpace) (now : Nat) (r : Reg) (i j : Nat) (v : Word64) (h : (regInfo r).wide = false) :
    (c.codeWrite now r i j v).r32 r i j =
      ((c.r32 r i j &&& ~~~BitVec.ofNat 32 (regInfo r).rw) ||| (v.truncate 32 &&& BitVec.ofNat 32 (regInfo r).rw)) &&&
        ~~~(v.truncate 32 &&& (BitVec.ofNat 32 (regInfo r).w1c &&& ~~~((c.raisedAt now (regOff r i j)).truncate 32))) := by
  simp [CfgSpace.codeWrite, h, BitVec.setWidth_and, BitVec.setWidth_or, BitVec.setWidth_not]

/-- A register with no W1C bit takes its RW bits and keeps the others. -/
theorem CfgSpace.r32_codeWrite_rw (c : CfgSpace) (now : Nat) (r : Reg) (i j : Nat) (v : Word64) (h : (regInfo r).wide = false) (hc : (regInfo r).w1c = 0) :
    (c.codeWrite now r i j v).r32 r i j =
      (c.r32 r i j &&& ~~~BitVec.ofNat 32 (regInfo r).rw) ||| (v.truncate 32 &&& BitVec.ofNat 32 (regInfo r).rw) := by
  rw [CfgSpace.r32_codeWrite c now r i j v h, hc]
  simp only [BitVec.zero_and, BitVec.and_zero, BitVec.not_zero, BitVec.and_allOnes]

/-- A register with no RW bit loses the W1C bits written as 1 that hardware does not set now (R14). -/
theorem CfgSpace.r32_codeWrite_w1c (c : CfgSpace) (now : Nat) (r : Reg) (i j : Nat) (v : Word64) (h : (regInfo r).wide = false) (hr : (regInfo r).rw = 0) :
    (c.codeWrite now r i j v).r32 r i j =
      c.r32 r i j &&& ~~~(v.truncate 32 &&& BitVec.ofNat 32 (regInfo r).w1c &&& ~~~((c.raisedAt now (regOff r i j)).truncate 32)) := by
  rw [CfgSpace.r32_codeWrite c now r i j v h, hr, BitVec.and_assoc]
  simp only [BitVec.and_zero, BitVec.not_zero, BitVec.and_allOnes, BitVec.or_zero]

theorem CfgSpace.r64_codeWrite (c : CfgSpace) (now : Nat) (r : Reg) (i j : Nat) (v : Word64) (h : (regInfo r).wide = true) (hc : (regInfo r).w1c = 0) :
    (c.codeWrite now r i j v).r64 r i j =
      (c.r64 r i j &&& ~~~BitVec.ofNat 64 (regInfo r).rw) ||| (v &&& BitVec.ofNat 64 (regInfo r).rw) := by
  simp only [CfgSpace.codeWrite, h, hc, ↓reduceIte, CfgSpace.r64_w64, BitVec.zero_and, BitVec.and_zero, BitVec.not_zero, BitVec.and_allOnes]

/-- The registers whose write has a rule of its own, or is not taken from every requester: all others follow the access codes alone. -/
def ownRule : Reg → Bool
  | .belPeriodNext | .belFracNext | .belSrcCtl | .belAlign | .belPtp
  | .cslCtl | .cslFmt | .cslDiv | .cslRts | .cslTxdata | .curCtl | .curDiv
  | .tntCtl | .tntAllot | .tntFlogBase | .tntPtroot | .tntFlogHead | .tntReset | .tntQBase | .tntQHdr | .tntQCtl
  | .schChCfg | .schTlimit | .mmuTlbiCmd | .regSplit | .regScrub | .regCtl | .regEntry | .prtCtl | .teHqCtl | .prbRqCtl
  | .rfeCmpCtl | .rfeCmpStride | .rfeGrowCtl | .twnLinkCtl | .twnKey | .twnRange | .twnJournalBase | .twnJournalSize | .twnUndoBase | .twnUndoSize | .pwrCtl | .fusProg | .fusDebug
  | .twnRkCtl | .twnRkDpCtl | .rfeVidCtl | .rfeVidRaster | .curRkIso
  | .twnRkDpRx | .twnRkDpRxHdr | .twnRkDpTx | .twnRkDpTxHdr | .rfeVidRtp | .rfeVidSrcIp | .rfeVidDstIp | .rfeVidUdp | .rfeVidSsrc | .rfeVidDstMac => true
  | _ => false

@[simp] theorem State.ctx_now (s : State) (sl : SledId) : (s.ctx sl).now = s.now := rfl

theorem State.onSled_codeWrite (s : State) (sl : SledId) (r : Reg) (i j : Nat) (v : Word64) :
    (s.onSled sl fun x d => { d with cfg := d.cfg.codeWrite x.now r i j v }) = s.onSpace (.sled sl) fun c => c.codeWrite s.now r i j v := by
  simp only [State.onSpace, State.onSled, State.ctx_now]

theorem State.sledWrite_of_no_rule (s : State) (who : Requester) (sl : SledId) (r : Reg) (i j : Nat) (v : Word64) (frame : Option TenantId) (h : ownRule r = false) :
    s.sledWrite who sl r i j v frame = s.onSpace (.sled sl) fun c => c.codeWrite s.now r i j v := by
  unfold State.sledWrite
  split
  case h_29 => exact s.onSled_codeWrite sl _ i j v
  all_goals cases h

theorem State.rackWrite_of_no_rule (s : State) (b : RfId) (r : Reg) (i j : Nat) (v : Word64) (h : ownRule r = false) :
    s.rackWrite b r i j v = s.onSpace (.rf b) fun c => c.codeWrite s.now r i j v := by
  unfold State.rackWrite
  split
  case h_16 => rfl
  all_goals cases h

theorem writeTaken_of_no_rule (who : Requester) {r : Reg} (h : ownRule r = false) : writeTaken who r = true := by
  unfold writeTaken
  split
  case h_7 => rfl
  all_goals cases h

/-- A register with no rule of its own takes a write by its access codes, on either kind of node. -/
theorem State.regWrite_of_no_rule (s : State) (who : Requester) (n : Node) (r : Reg) (i j : Nat) (v : Word64) (frame : Option TenantId) (h : ownRule r = false) :
    s.regWrite who n r i j v frame = (s.preRead n r).onSpace n fun c => c.codeWrite (s.preRead n r).now r i j v := by
  unfold State.regWrite
  simp only [writeTaken_of_no_rule who h, Bool.not_true, Bool.false_eq_true, ↓reduceIte]
  split
  case h_13 => cases n with
    | sled sl => exact State.sledWrite_of_no_rule _ who sl r i j v frame h
    | rf b => exact State.rackWrite_of_no_rule _ b r i j v h
  all_goals cases h

/-- The registers that show the passing of time. -/
def timedRegs : List Reg := [.cslStatus, .cslEvent, .cslBrklen, .curStatus, .curEvent, .fusRow, .fusProgStatus, .fusDebug, .fusBoot]

theorem State.preRead_of_not_timed (s : State) (n : Node) {r : Reg} (h : r ∉ timedRegs) : s.preRead n r = s := by
  unfold State.preRead
  split
  case h_10 => rfl
  all_goals exact absurd (by decide) h

theorem State.preRead_of_wide (s : State) (n : Node) {r : Reg} (h : (regInfo r).wide = true) : s.preRead n r = s := by
  have narrow : ∀ r ∈ timedRegs, (regInfo r).wide = false := by decide
  exact s.preRead_of_not_timed n fun hm => by simp [narrow r hm] at h

/-- A read of a pair returns what stands there and has no effect. -/
theorem State.regRead_of_wide (s : State) (n : Node) (r : Reg) (i j : Nat) (h : (regInfo r).wide = true) :
    s.regRead n r i j = (s, s.live n r i j) := by
  unfold State.regRead
  simp only [State.preRead_of_wide s n h]
  split
  case h_6 => rfl
  all_goals cases h

/-- A write of a TNT_ register acts on the sled it is for, whether or not it also goes to the twin (R391). -/
theorem State.space_onTnt (s : State) (who : Requester) (sl : SledId) (t : TenantId) (f : Ctx → Sled → Sled) :
    (s.onTnt who sl t f).space (.sled sl) = (f (s.ctx sl) (s.sled sl)).cfg := by
  unfold State.onTnt
  split
  · simp [State.space, State.onSled, State.sled_setSled_ne _ _ _ _ (twinOf_ne sl).symm]
  · simp [State.space, State.onSled]

theorem State.space_regWrite_tntPtroot (s : State) (who : Requester) (n : Node) (i j : Nat) (v : Word64) :
    (s.regWrite who n .tntPtroot i j v).space n = (s.space n).codeWrite s.now .tntPtroot i j v := by
  cases n with
  | sled sl => exact s.space_onTnt who sl (tenantOf i) _
  | rf b => exact s.space_onSpace (.rf b) fun c => c.codeWrite s.now .tntPtroot i j v

/-- A pair with no rule of its own is written in its node's config space by its access codes. -/
theorem State.space_regWrite_of_wide (s : State) (who : Requester) (n : Node) {r : Reg} (i j : Nat) (v : Word64) (hw : (regInfo r).wide = true)
    (h : ownRule r = false) : (s.regWrite who n r i j v).space n = (s.space n).codeWrite s.now r i j v := by
  rw [State.regWrite_of_no_rule s who n r i j v none h, State.preRead_of_wide s n hw, State.space_onSpace]

/-! ### Accesses by the kind of the word at the offset -/

section
variable (s : State) (who : Requester) (n : Node) (off : Nat)

theorem State.cfgLoad_unfit {width : Nat} (h : cfgFits off width = false) : s.cfgLoad who n off width = (s, .align) := by
  simp [State.cfgLoad, h]

theorem State.cfgStore_unfit {width : Nat} (v : Word64) (h : cfgFits off width = false) : s.cfgStore who n off width v = (s, .align) := by
  simp [State.cfgStore, h]

theorem State.cfgLoad_word (h4 : off % 4 = 0) :
    s.cfgLoad who n off 4 = ((s.cfgRead32 who n off).1, .val ((s.cfgRead32 who n off).2.zeroExtend 64)) := by
  simp [State.cfgLoad, cfgFits, h4]

theorem State.cfgStore_word (h4 : off % 4 = 0) (v : Word64) : s.cfgStore who n off 4 v = (s.cfgWrite32 who n off (v.truncate 32), .none) := by
  simp [State.cfgStore, cfgFits, h4]

theorem State.cfgStore_word_extended (h4 : off % 4 = 0) (v : Word32) :
    s.cfgStore who n off 4 (v.zeroExtend 64) = (s.cfgWrite32 who n off v, .none) := by
  rw [State.cfgStore_word s who n off h4]
  simp

theorem State.cfgRead32_none (h : cfgAt n off = none) : s.cfgRead32 who n off = (s, 0) := by
  simp [State.cfgRead32, h]

theorem State.cfgWrite32_none (h : cfgAt n off = none) (v : Word32) : s.cfgWrite32 who n off v = s := by
  simp [State.cfgWrite32, h]

theorem State.cfgWrite32_of_word {h : RegHit} (hc : cfgAt n off = some h) (hw : (regInfo h.reg).wide = false) (v : Word32) :
    s.cfgWrite32 who n off v = s.regWrite who n h.reg h.i h.j (v.zeroExtend 64) := by
  simp [State.cfgWrite32, hc, hw]

section
variable {h : RegHit} (hc : cfgAt n off = some h) (hw : (regInfo h.reg).wide = true)
include hc hw

/-- A read of a pair's low word keeps its high word for the requester (R8). -/
theorem State.cfgRead32_low (hl : h.high = false) :
    s.cfgRead32 who n off =
      (s.onSpace n fun c => c.latch who off ((s.live n h.reg h.i h.j >>> 32).truncate 32), (s.live n h.reg h.i h.j).truncate 32) := by
  simp only [State.cfgRead32, hc, hw, hl, State.regRead_of_wide s n h.reg h.i h.j hw, Bool.not_true, Bool.false_eq_true, ↓reduceIte]
  rfl

/-- A read of a pair's high word uses up the word kept for the requester (R8). -/
theorem State.cfgRead32_high_kept (hh : h.high = true) {k : Word32} (hk : (s.space n).shadow who (off - 4) = some k) :
    s.cfgRead32 who n off = (s.onSpace n fun c => c.dropShadow who (off - 4), k) := by
  simp [State.cfgRead32, hc, hw, hh, hk]

/-- With nothing kept for the requester a pair's high word is read from the register. -/
theorem State.cfgRead32_high_live (hh : h.high = true) (hk : (s.space n).shadow who (off - 4) = none) :
    s.cfgRead32 who n off = (s, (s.live n h.reg h.i h.j >>> 32).truncate 32) := by
  simp [State.cfgRead32, hc, hw, hh, hk, State.regRead_of_wide]

/-- A write of a pair's low word is held (R9). -/
theorem State.cfgWrite32_low (hl : h.high = false) (ht : writeTaken who h.reg = true) (v : Word32) :
    s.cfgWrite32 who n off v = s.onSpace n fun c => c.hold who off v := by
  simp only [State.cfgWrite32, hc, hw, hl, ht, Bool.not_true, Bool.false_eq_true, ↓reduceIte]
  rfl

/-- A write of a pair's high word commits the low word this requester holds with it (R9). -/
theorem State.cfgWrite32_high_held (hh : h.high = true) (ht : writeTaken who h.reg = true) (v : Word32) {k : Word32}
    (hk : (s.space n).heldAt (off - 4) = some (who, k)) :
    s.cfgWrite32 who n off v = (s.onSpace n fun c => c.dropHeld (off - 4)).regWrite who n h.reg h.i h.j (v ++ k) := by
  simp [State.cfgWrite32, hc, hw, hh, ht, hk]

/-- Where this requester holds no low word, a write of a pair's high word commits the low word as it stands. -/
theorem State.cfgWrite32_high_free (hh : h.high = true) (ht : writeTaken who h.reg = true) (v : Word32)
    (hk : ∀ k, (s.space n).heldAt (off - 4) ≠ some (who, k)) :
    s.cfgWrite32 who n off v =
      (s.onSpace n fun c => c.dropHeld (off - 4)).regWrite who n h.reg h.i h.j (v ++ ((s.live n h.reg h.i h.j).truncate 32 : Word32)) := by
  simp only [State.cfgWrite32, hc, hw, hh, ht, Bool.not_true, Bool.false_eq_true, ↓reduceIte]
  cases held : (s.space n).heldAt (off - 4) with
  | none => rfl
  | some e =>
    obtain ⟨w, l⟩ := e
    have hne : w ≠ who := fun he => hk l (he ▸ held)
    simp only [if_neg hne]

theorem State.cfgLoad_pair (h8 : off % 8 = 0) : s.cfgLoad who n off 8 = (s, .val (s.live n h.reg h.i h.j)) := by
  simp [State.cfgLoad, State.cfgRead64, cfgFits, h8, hc, hw, State.regRead_of_wide]

theorem State.cfgStore_pair (h8 : off % 8 = 0) (v : Word64) : s.cfgStore who n off 8 v = (s.pairStore who n h.reg h.i h.j v, .none) := by
  simp [State.cfgStore, State.cfgWrite64, cfgFits, h8, hc, hw]

end
end

/-! ### The commands of config space -/

section
variable (who : Requester) (n : Node) (off : CfgOff) (s : State)

theorem exec_cfgLowWordRead : exec (.cfgLowWordRead who n off) s = .next (State.answer (s.cfgLoad who n off.toNat 4)) := rfl
theorem exec_cfgHighWordRead : exec (.cfgHighWordRead who n off) s = .next (State.answer (s.cfgLoad who n off.toNat 4)) := rfl
theorem exec_cfgLowWordWrite (v : Word32) :
    exec (.cfgLowWordWrite who n off v) s = .next (State.answer (s.cfgStore who n off.toNat 4 (v.zeroExtend 64))) := rfl
theorem exec_cfgHighWordWrite (v : Word32) :
    exec (.cfgHighWordWrite who n off v) s = .next (State.answer (s.cfgStore who n off.toNat 4 (v.zeroExtend 64))) := rfl
theorem exec_w1cWrite (v : Word32) : exec (.w1cWrite who n off v) s = .next (State.answer (s.cfgStore who n off.toNat 4 (v.zeroExtend 64))) := rfl
theorem exec_registerWrite (width : Nat) (v : Word64) :
    exec (.registerWrite who n off width v) s = .next (State.answer (s.cfgStore who n off.toNat width v)) := rfl
theorem exec_cfgPairRead : exec (.cfgPairAccess64 who n off none) s = .next (State.answer (s.cfgLoad who n off.toNat 8)) := rfl
theorem exec_cfgPairWrite (v : Word64) : exec (.cfgPairAccess64 who n off (some v)) s = .next (State.answer (s.cfgStore who n off.toNat 8 v)) := rfl
theorem exec_unassignedRead : exec (.unassignedOffsetAccess who n off none) s = .next (State.answer (s.cfgLoad who n off.toNat 4)) := rfl
theorem exec_unassignedWrite (v : Word32) :
    exec (.unassignedOffsetAccess who n off (some v)) s = .next (State.answer (s.cfgStore who n off.toNat 4 (v.zeroExtend 64))) := rfl

/-- Every 32-bit command answers ALIGN off a multiple of 4 (R5). -/
theorem exec_cfgRows_unaligned (v : Word32) (h4 : off.toNat % 4 ≠ 0) : ∀ c ∈ cfgRows who n off v, exec c s = .next { s with reply := .align } := by
  have unfit : cfgFits off.toNat 4 = false := by simp [cfgFits, h4]
  have load : State.answer (s.cfgLoad who n off.toNat 4) = { s with reply := .align } := by rw [State.cfgLoad_unfit s who n _ unfit]; rfl
  have store : State.answer (s.cfgStore who n off.toNat 4 (v.zeroExtend 64)) = { s with reply := .align } := by
    rw [State.cfgStore_unfit s who n _ _ unfit]; rfl
  simp only [cfgRows, List.forall_mem_cons, List.not_mem_nil, false_implies, implies_true, exec_cfgLowWordRead, exec_cfgHighWordRead,
    exec_cfgLowWordWrite, exec_cfgHighWordWrite, exec_w1cWrite, exec_unassignedRead, exec_unassignedWrite, load, store, and_self]

/-- A 64-bit access off a multiple of 8 answers ALIGN (R5). -/
theorem exec_cfgPair_unaligned (w : Option Word64) (h8 : off.toNat % 8 ≠ 0) : exec (.cfgPairAccess64 who n off w) s = .next { s with reply := .align } := by
  have unfit : cfgFits off.toNat 8 = false := by simp [cfgFits, h8]
  cases w with
  | none => rw [exec_cfgPairRead, State.cfgLoad_unfit s who n _ unfit]; rfl
  | some v => rw [exec_cfgPairWrite, State.cfgStore_unfit s who n _ _ unfit]; rfl

/-- An access of another width, or off a multiple of it, answers ALIGN (R5). -/
theorem exec_registerWrite_unfit (width : Nat) (v : Word64) (h : (width ≠ 4 ∧ width ≠ 8) ∨ off.toNat % width ≠ 0) :
    exec (.registerWrite who n off width v) s = .next { s with reply := .align } := by
  have unfit : cfgFits off.toNat width = false := decide_eq_false (by tauto)
  rw [exec_registerWrite, State.cfgStore_unfit s who n _ _ unfit]; rfl

/-- A write of a 32-bit register with RW bits alone takes them from the value and keeps the others (R3). -/
theorem exec_registerWrite_takes_rw {r : Reg} {i j : Nat} (hc : cfgAt n off.toNat = some ⟨r, i, j, false⟩) (h4 : off.toNat % 4 = 0) (v : Word64)
    (hw : (regInfo r).wide = false) (h1 : (regInfo r).w1c = 0) (ho : ownRule r = false) (hp : r ∉ timedRegs) :
    ∃ t, exec (.registerWrite who n off 4 v) s = .next t ∧ t.reply = .none ∧
      (t.space n).r32 r i j = ((s.space n).r32 r i j &&& ~~~BitVec.ofNat 32 (regInfo r).rw) ||| (v.truncate 32 &&& BitVec.ofNat 32 (regInfo r).rw) := by
  refine ⟨_, exec_registerWrite who n off s 4 v, ?_, ?_⟩
  · simp [State.cfgStore_word, h4]
  · rw [State.cfgStore_word s who n _ h4, State.cfgWrite32_of_word s who n _ hc hw, State.regWrite_of_no_rule s who n r i j _ none ho,
      State.preRead_of_not_timed s n hp]
    simp [CfgSpace.r32_codeWrite_rw, hw, h1]

/-- A write of an event register clears the bits written as 1 that hardware does not set in the same cycle (R14). -/
theorem exec_w1cWrite_clears {r : Reg} {i j : Nat} (hc : cfgAt n off.toNat = some ⟨r, i, j, false⟩) (h4 : off.toNat % 4 = 0) (v : Word32)
    (hw : (regInfo r).wide = false) (h0 : (regInfo r).rw = 0) (ho : ownRule r = false) :
    ∃ t, exec (.w1cWrite who n off v) s = .next t ∧ t.reply = .none ∧
      (t.space n).r32 r i j = ((s.preRead n r).space n).r32 r i j &&& ~~~(v &&& BitVec.ofNat 32 (regInfo r).w1c &&&
        ~~~((((s.preRead n r).space n).raisedAt (s.preRead n r).now (regOff r i j)).truncate 32)) := by
  refine ⟨_, exec_w1cWrite who n off s v, ?_, ?_⟩
  · simp [State.cfgStore_word, h4]
  · rw [State.cfgStore_word_extended s who n _ h4, State.cfgWrite32_of_word s who n _ hc hw, State.regWrite_of_no_rule s who n r i j _ none ho]
    simp [CfgSpace.r32_codeWrite_w1c, hw, h0]

/-! ### The commands on pairs of registers -/

variable {h : RegHit} (hc : cfgAt n off.toNat = some h) (hw : (regInfo h.reg).wide = true)
include hc hw

/-- A read of a low word latches the high word; no register changes, and no shadow of another requester or pair (R8). -/
theorem exec_cfgLowWordRead_latches (h4 : off.toNat % 4 = 0) (hl : h.high = false) : let x := s.live n h.reg h.i h.j
    ∃ t, exec (.cfgLowWordRead who n off) s = .next t ∧ t.reply = .val ((x.truncate 32 : Word32).zeroExtend 64) ∧
      (t.space n).words = (s.space n).words ∧ (t.space n).shadow who off.toNat = some ((x >>> 32).truncate 32) ∧
      ∀ w p, w ≠ who ∨ p ≠ off.toNat → (t.space n).shadow w p = (s.space n).shadow w p := by
  refine ⟨_, exec_cfgLowWordRead who n off s, ?_⟩
  rw [State.cfgLoad_word s who n _ h4, State.cfgRead32_low s who n _ hc hw hl]
  refine ⟨rfl, ?_, ?_, fun w p other => ?_⟩
  · simp
  · simp
  · simpa using CfgSpace.shadow_latch_ne _ who w off.toNat p _ other

/-- A read of a high word returns the shadow and uses it up (R8). -/
theorem exec_cfgHighWordRead_uses_shadow (h4 : off.toNat % 4 = 0) (hh : h.high = true) (k : Word32) (hk : (s.space n).shadow who (off.toNat - 4) = some k) :
    ∃ t, exec (.cfgHighWordRead who n off) s = .next t ∧ t.reply = .val (k.zeroExtend 64) ∧
      (t.space n).words = (s.space n).words ∧ (t.space n).shadow who (off.toNat - 4) = none := by
  refine ⟨_, exec_cfgHighWordRead who n off s, ?_⟩
  rw [State.cfgLoad_word s who n _ h4, State.cfgRead32_high_kept s who n _ hc hw hh hk]
  refine ⟨rfl, ?_, ?_⟩
  · simp
  · simp

/-- A write of a low word is held and changes no register (R9). -/
theorem exec_cfgLowWordWrite_holds (h4 : off.toNat % 4 = 0) (hl : h.high = false) (ht : writeTaken who h.reg = true) (v : Word32) :
    ∃ t, exec (.cfgLowWordWrite who n off v) s = .next t ∧ t.reply = .none ∧
      (t.space n).words = (s.space n).words ∧ (t.space n).heldAt off.toNat = some (who, v) := by
  refine ⟨_, exec_cfgLowWordWrite who n off s v, ?_⟩
  rw [State.cfgStore_word_extended s who n _ h4, State.cfgWrite32_low s who n _ hc hw hl ht]
  refine ⟨rfl, ?_, ?_⟩
  · simp
  · simp

/-- A 64-bit write of a pair that follows its access codes drops the held low word and takes the RW bits (R7, R16). -/
theorem exec_cfgPairWrite_takes_rw (h8 : off.toNat % 8 = 0) (v : Word64) (ht : writeTaken who h.reg = true) (h1 : (regInfo h.reg).w1c = 0)
    (codes : ∀ s : State, (s.regWrite who n h.reg h.i h.j v).space n = (s.space n).codeWrite s.now h.reg h.i h.j v) :
    ∃ t, exec (.cfgPairAccess64 who n off (some v)) s = .next t ∧ (t.space n).heldAt (regOff h.reg h.i h.j) = none ∧
      (t.space n).r64 h.reg h.i h.j =
        ((s.space n).r64 h.reg h.i h.j &&& ~~~BitVec.ofNat 64 (regInfo h.reg).rw) ||| (v &&& BitVec.ofNat 64 (regInfo h.reg).rw) := by
  refine ⟨_, exec_cfgPairWrite who n off s v, ?_⟩
  rw [State.cfgStore_pair s who n _ hc hw h8, State.pairStore, if_pos ht, State.space_answer, codes, State.space_onSpace]
  constructor
  · simp
  · simp [CfgSpace.r64_codeWrite, hw, h1]

end

/-! ### The registers of the obligation -/

/-- The 32-bit registers the obligation writes. -/
def rwWords : List Reg :=
  [.gteBudget, .ledToll, .ledTollCtl, .schQnotify, .belEventEn, .twnEventEn, .pwrEventEn, .cslEventEn, .curEventEn, .curHealth, .teHqThresh, .teHqHandle]

/-- The event registers. -/
def eventWords : List Reg := [.belEvent, .twnEvent, .pwrEvent, .cslEvent, .curEvent]

/-- The pairs the obligation writes, but for PTROOT, which is written on the tenant's path. -/
def plainPairs : List Reg := [.mmuTlbiVa, .teHqBase, .prbRqBase, .prtScratchBase]

theorem rwWords_codes : ∀ r ∈ rwWords, (regInfo r).wide = false ∧ (regInfo r).w1c = 0 ∧ ownRule r = false ∧ r ∉ timedRegs := by decide

theorem eventWords_codes : ∀ r ∈ eventWords, (regInfo r).wide = false ∧ (regInfo r).rw = 0 ∧ ownRule r = false := by decide

theorem plainPairs_codes : ∀ r ∈ plainPairs, (regInfo r).wide = true ∧ (regInfo r).w1c = 0 ∧ ownRule r = false := by decide

/-- What a pair needs for a 64-bit write to be no more than its access codes say. -/
theorem pair_codes (who : Requester) (n : Node) {r : Reg} (hr : r ∈ Reg.tntPtroot :: plainPairs) :
    writeTaken who r = true ∧ (regInfo r).w1c = 0 ∧
      ∀ (s : State) (i j : Nat) (v : Word64), (s.regWrite who n r i j v).space n = (s.space n).codeWrite s.now r i j v := by
  rcases List.mem_cons.1 hr with rfl | hr
  · exact ⟨rfl, rfl, fun s => s.space_regWrite_tntPtroot who n⟩
  · obtain ⟨hw, h1, ho⟩ := plainPairs_codes r hr
    exact ⟨writeTaken_of_no_rule who ho, h1, fun s i j v => s.space_regWrite_of_wide who n i j v hw ho⟩

/-! ### The obligation -/

theorem configAccessesFollowTheirTables : ConfigAccessesFollowTheirTables := by
  intro who n off v v8 width s
  refine ⟨exec_cfgRows_unaligned who n off s v, fun h8 w _ => exec_cfgPair_unaligned who n off s w h8, exec_registerWrite_unfit who n off s width v8, ?_, ?_, ?_⟩
  · intro hc h4
    constructor
    · rw [exec_unassignedRead, State.cfgLoad_word s who n _ h4, State.cfgRead32_none s who n _ hc]; rfl
    · rw [exec_unassignedWrite, State.cfgStore_word_extended s who n _ h4, State.cfgWrite32_none s who n _ hc]; rfl
  · intro r hr i j hc h4
    obtain ⟨hw, h1, ho, hp⟩ := rwWords_codes r hr
    exact exec_registerWrite_takes_rw who n off s hc h4 v8 hw h1 ho hp
  · intro r hr hc h4
    obtain ⟨hw, h0, ho⟩ := eventWords_codes r hr
    exact exec_w1cWrite_clears who n off s hc h4 v hw h0 ho

theorem pairsAreReadAndWrittenWhole : PairsAreReadAndWrittenWhole := by
  intro who n off v v8 s h hc hw
  refine ⟨exec_cfgLowWordRead_latches who n off s hc hw, fun h4 hh => ⟨exec_cfgHighWordRead_uses_shadow who n off s hc hw h4 hh, fun hk => ?_⟩,
    fun h4 hl ht => exec_cfgLowWordWrite_holds who n off s hc hw h4 hl ht v, fun h4 hh ht => ⟨fun k hk => ?_, fun hk => ?_⟩, fun h8 => ⟨?_, ?_⟩, fun h8 hr => ?_⟩
  · rw [exec_cfgHighWordRead, State.cfgLoad_word s who n _ h4, State.cfgRead32_high_live s who n _ hc hw hh hk]; rfl
  · rw [exec_cfgHighWordWrite, State.cfgStore_word_extended s who n _ h4, State.cfgWrite32_high_held s who n _ hc hw hh ht v hk]; rfl
  · rw [exec_cfgHighWordWrite, State.cfgStore_word_extended s who n _ h4, State.cfgWrite32_high_free s who n _ hc hw hh ht v hk]; rfl
  · rw [exec_cfgPairRead, State.cfgLoad_pair s who n _ hc hw h8]; rfl
  · rw [exec_cfgPairWrite, State.cfgStore_pair s who n _ hc hw h8]; rfl
  · obtain ⟨ht, h1, codes⟩ := pair_codes who n hr
    exact exec_cfgPairWrite_takes_rw who n off s hc hw h8 v8 ht h1 fun s => codes s h.i h.j v8

/-- Settles O28: each access is traced to the word at its offset, and that word to its register's access codes. -/
theorem configRegistersFollowTheirTables : Obligations.ConfigRegistersFollowTheirTables :=
  ⟨configAccessesFollowTheirTables, pairsAreReadAndWrittenWhole⟩

end Sys2Proof.Machine
end

section
/-! The return from an exception (R126): to an aligned EPC it restores STATE, synchronizes and goes there; a misaligned EPC is an ALIGN exception, which under EXL
ends the thread (R133). -/
namespace Sys2Proof.Machine

theorem exec_tret (sl : SledId) (c : CoreId) (s : State) : exec (.tret sl c) s = .next (s.xehal sl c .tret (State.tret sl c)) := rfl

/-! ### To an aligned EPC -/

theorem State.tret_of_aligned (s : State) (sl : SledId) (c : CoreId) (i : IWord) (h : (s.core sl c).epc.toNat % 16 = 0) :
    State.tret sl c s i =
      .jump (s.setSled sl (((s.sled sl).onCore c fun k => { k with state := k.estate &&& 0x3F }).syncText (s.ctx sl) c)) (s.core sl c).epc := by
  simp [State.tret, h]

/-- A core that synchronizes its text in state `s` (R124). -/
def State.synced (s : State) (sl : SledId) (k : Core) : Core := { k with textSeq := (s.sled sl).textSeq, farSeq := tableOf 16 (s.ctx sl).marks }

/-- A jump after the core was changed by `f` and synchronized leaves the core so changed, at its target. -/
theorem done_jump_syncText (s0 s : State) (sl : SledId) (c : CoreId) (i : IWord) (f : Core → Core) (pc : Word64) :
    (XOut.jump (s.setSled sl (((s.sled sl).onCore c f).syncText (s.ctx sl) c)) pc).done s0 sl c (s.core sl c) i =
      s.setSled sl { s.sled sl with
        cores := mset (s.sled sl).cores c { (s.synced sl (f (s.core sl c))).stepSr i with pc := pc }
        counts := mmod (s.sled sl).counts ((s.core sl c).tenant.val * 32 + 6) (· + 1)
        oldText := (s.sled sl).keptText (s.ctx sl) (mset (s.sled sl).cores c (s.synced sl (f (s.core sl c)))) } := by
  simp only [State.synced, XOut.done, State.retire, Sled.syncText_onCore, State.onCore_eq, State.tally_eq, State.core, Sled.core, State.sled_setSled_self,
    State.setSled_setSled, mset_mset, mget_mset, ↓reduceIte]

/-- What replacing a core, the counts and the old text of a sled leaves as it was: the other cores and every byte. -/
theorem setSled_core_frame (s : State) (sl : SledId) (c : CoreId) (k : Core) (ns : Map Nat) (old : List OldText) :
    let t := s.setSled sl { s.sled sl with cores := mset (s.sled sl).cores c k, counts := ns, oldText := old }
    t.core sl c = k ∧ (∀ e : CoreId, e ≠ c → t.core sl e = s.core sl e) ∧ SameBytes s t := by
  refine ⟨by simp [State.core, Sled.core], fun e he => by simp [State.core, Sled.core, Fin.val_ne_of_ne he], fun x off => ?_⟩
  rw [State.sled_setSled]
  split
  · next h => subst h; exact congrFun (Sled.byte_congr rfl rfl rfl rfl rfl rfl) off
  · rfl

section
variable {s s1 : State} {sl : SledId} {c : CoreId} {i : IWord} (h : Issues s sl c .tret i s1)
include h

theorem exec_tret_aligned (ha : (s1.core sl c).epc.toNat % 16 = 0) : let k := s1.core sl c
    ∃ t, exec (.tret sl c) s = .next t ∧
      t.core sl c = { k with state := k.estate &&& 0x3F, pc := k.epc, textSeq := (s1.sled sl).textSeq, farSeq := tableOf 16 (s1.ctx sl).marks, srcount := k.srAfter i } ∧
      (∀ e : CoreId, e ≠ c → t.core sl e = s1.core sl e) ∧ SameBytes s1 t := by
  refine ⟨_, exec_tret sl c s, ?_⟩
  rw [xehal_issues h, State.tret_of_aligned s1 sl c i ha, done_jump_syncText]
  obtain ⟨core, others, bytes⟩ := setSled_core_frame s1 sl c _ _ _
  refine ⟨core.trans ?_, others, bytes⟩
  rw [Core.stepSr_eq]
  rfl

/-! ### To a misaligned EPC -/

/-- A TRET to a misaligned EPC is an ALIGN exception of the state after the fetch. -/
theorem exec_tret_misaligned (ha : (s1.core sl c).epc.toNat % 16 ≠ 0) :
    exec (.tret sl c) s = .next (State.trap s s1 sl c 6 0 (s1.core sl c).epc false) := by
  have body : State.tret sl c s1 i = .trap s1 6 (s1.core sl c).epc false := by simp [State.tret, ha]
  rw [exec_tret, xehal_issues h, body, XOut.done]

end

@[simp] theorem Sled.ent_setEnt_self (d : Sled) (die e : Nat) (v : Entry) : (d.setEnt die e v).ent die e = v := by
  simp [Sled.ent, Sled.slice, Sled.setEnt]
@[simp] theorem Sled.ent_finish (d : Sled) (id : Nat) (status fault : Byte) (die e : Nat) : (d.finish id status fault).ent die e = d.ent die e := rfl
@[simp] theorem Sled.ent_leaveCore (d : Sled) (c : CoreId) (die e : Nat) : (d.leaveCore c).ent die e = d.ent die e := rfl

/-- The entry of a thread that ended is free (R228). -/
theorem Sled.ent_endThread_st (x : Ctx) (d : Sled) (die e : Nat) (status : Byte) : ((d.endThread x die e status).ent die e).st = .none := by
  dsimp only [Sled.endThread]
  split
  · rw [Sled.ent_setEnt_self]; rfl
  · rw [Sled.ent_finish, Sled.ent_setEnt_self]; rfl

/-- A core that its thread left runs none. -/
theorem Sled.entry_leaveCore (d : Sled) (c : CoreId) : ((d.leaveCore c).core c).entry = none := by
  simp [Sled.leaveCore, Sled.releaseCore]

/-- An exception under EXL ends the thread: its core runs none, and its entry is free (R133). -/
theorem Sled.doubleFault_ends (x : Ctx) (d : Sled) (c : CoreId) (code level : Nat) (ea : Word64) {e : Nat} (he : (d.core c).entry = some e) :
    ((d.doubleFault x c code level ea).core c).entry = none ∧ ((d.doubleFault x c code level ea).ent (dieOf c) e).st = .none := by
  simp only [Sled.doubleFault, he]
  refine ⟨Sled.entry_leaveCore _ c, ?_⟩
  rw [Sled.ent_leaveCore]
  exact Sled.ent_endThread_st x _ _ e 0

/-- Under EXL an exception with nothing in flight is a double exception. -/
theorem State.trap_doubleFault (s0 s : State) (sl : SledId) (c : CoreId) (code level : Nat) (ea : Word64) (after : Bool)
    (hf : (s.core sl c).flights = []) (hx : bit (s.core sl c).state 1 = true) :
    State.trap s0 s sl c code level ea after = s.setSled sl ((s.sled sl).doubleFault (s.ctx sl) c code level ea) := by
  have hx' : bit ((s.sled sl).core c).state 1 = true := hx
  rw [State.trap, if_neg (by simp [hf]), Sled.takeTrap, if_pos hx']

/-- Settles O16: an aligned EPC is a jump of the synchronized core, and a misaligned one an exception, single or double as EXL says. -/
theorem tretReturns : Obligations.TretReturns := by
  intro sl c s s1 i h
  refine ⟨exec_tret_aligned h, fun ha hf hx => ?_, fun e ha hf hx he => ?_⟩
  · exact ⟨_, exec_tret_misaligned h ha, State.trap_took s s1 sl c 6 0 _ false hf hx⟩
  · refine ⟨_, exec_tret_misaligned h ha, ?_⟩
    rw [State.trap_doubleFault s s1 sl c 6 0 _ false hf hx, State.core, State.sled_setSled_self]
    exact (s1.sled sl).doubleFault_ends (s1.ctx sl) c 6 0 _ he

end Sys2Proof.Machine
end

section
/-! Integer arithmetic and conversions to integers (R118): the value of an operand as that of a bit vector, wrapping and clamping as `BitVec.ofInt`, and from these
each integer function and the cases of a conversion. -/
namespace Sys2Proof.Machine

/-! ### Operands and results as bit vectors -/

section
variable {w : Nat} (u : Bool) (x y : BitVec w) (v : Int)

theorem sval_toNat : sval w x.toNat = x.toInt := by
  have hx : x.toNat < 2 ^ w := x.isLt
  rw [sval, Nat.mod_eq_of_lt hx, BitVec.toInt_eq_toNat_cond]
  cases w with
  | zero => simp [BitVec.eq_nil x]
  | succ n =>
    have hp : 2 ^ (n + 1) = 2 * 2 ^ n := Nat.pow_succ'
    rw [Nat.add_sub_cancel]
    split <;> split <;> omega

theorem ival_toNat : ival w u x.toNat = if u then (x.toNat : Int) else x.toInt := by
  rw [ival, sval_toNat, Nat.mod_eq_of_lt x.isLt]

theorem ival_true_toNat : ival w true x.toNat = x.toNat := ival_toNat true x
theorem ival_false_toNat : ival w false x.toNat = x.toInt := ival_toNat false x

theorem wrapInt_eq_toNat_ofInt : wrapInt w v = (BitVec.ofInt w v).toNat := by
  rw [wrapInt, BitVec.toNat_ofInt, Nat.cast_pow, Nat.cast_ofNat]

/-- An operand's value, signed or unsigned, wraps to the operand. -/
theorem ofInt_ival : BitVec.ofInt w (ival w u x.toNat) = x := by
  cases u
  · rw [ival_false_toNat, BitVec.ofInt_toInt]
  · rw [ival_true_toNat, BitVec.ofInt_natCast, BitVec.ofNat_toNat, BitVec.setWidth_eq]

theorem wrapInt_ival : wrapInt w (ival w u x.toNat) = x.toNat := by rw [wrapInt_eq_toNat_ofInt, ofInt_ival]

theorem intMin_le_intMax (w : Nat) (u : Bool) : intMin w u ≤ intMax w u := by
  have h : (0 : Int) < 2 ^ w := by positivity
  have h' : (0 : Int) < 2 ^ (w - 1) := by positivity
  cases u
  · change -(2 ^ (w - 1) : Int) ≤ 2 ^ (w - 1) - 1
    omega
  · change (0 : Int) ≤ 2 ^ w - 1
    omega

/-- A value within the limits of its type is the value of what it wraps to. -/
theorem ival_ofInt (hw : 0 < w) (lo : intMin w u ≤ v) (hi : v ≤ intMax w u) : ival w u (BitVec.ofInt w v).toNat = v := by
  cases u
  · rw [ival_false_toNat]
    exact BitVec.toInt_ofInt_eq_self hw lo (Int.lt_of_le_sub_one hi)
  · have nonneg : 0 ≤ v := lo
    have lt : v < 2 ^ w := Int.lt_of_le_sub_one hi
    rw [ival_true_toNat, ← wrapInt_eq_toNat_ofInt, wrapInt, Int.emod_eq_of_lt nonneg lt, Int.toNat_of_nonneg nonneg]

/-! ### Wrapping and clamping (R118) -/

/-- A value clamped to the limits of an integer type. -/
def clamped (w : Nat) (u : Bool) (v : Int) : Int := max (intMin w u) (min (intMax w u) v)

theorem clampInt_eq_toNat_ofInt : clampInt w u v = (BitVec.ofInt w (clamped w u v)).toNat := by
  have limits := intMin_le_intMax w u
  rw [clampInt, wrapInt_eq_toNat_ofInt, clamped]
  congr 2
  split
  · omega
  · split <;> omega

theorem arith_wraps {z : BitVec w} (h : BitVec.ofInt w v = z) : arith w u false v = z.toNat := by
  rw [arith, if_neg Bool.false_ne_true, wrapInt_eq_toNat_ofInt, h]

theorem arith_saturates (hw : 0 < w) : ∃ z : BitVec w, arith w u true v = z.toNat ∧ ival w u z.toNat = clamped w u v := by
  have limits := intMin_le_intMax w u
  refine ⟨BitVec.ofInt w (clamped w u v), ?_, ival_ofInt u _ hw ?_ ?_⟩
  · rw [arith, if_pos rfl, clampInt_eq_toNat_ofInt]
  · exact le_max_left _ _
  · exact max_le limits (min_le_left _ _)

/-! ### Addition, subtraction and multiplication -/

theorem fnAdd_wraps : fnAdd w u false x.toNat y.toNat = ((x + y).toNat, 0) := by
  rw [fnAdd, arith_wraps u _ (by rw [BitVec.ofInt_add, ofInt_ival, ofInt_ival])]

theorem fnSub_wraps : fnSub w u false x.toNat y.toNat = ((x - y).toNat, 0) := by
  rw [fnSub, arith_wraps u _ (by rw [Int.sub_eq_add_neg, BitVec.ofInt_add, BitVec.ofInt_neg, ofInt_ival, ofInt_ival, ← BitVec.sub_eq_add_neg])]

theorem fnMul_wraps : fnMul w u false x.toNat y.toNat = ((x * y).toNat, 0) := by
  rw [fnMul, arith_wraps u _ (by rw [BitVec.ofInt_mul, ofInt_ival, ofInt_ival])]

/-! ### Shifts -/

theorem fnShl_eq (sat : Bool) (b : Nat) : fnShl w u sat x.toNat b = ((x <<< (b % w)).toNat, 0) := by
  rw [fnShl, BitVec.toNat_shiftLeft, Nat.shiftLeft_eq]

theorem fnShr_eq (sat : Bool) (b : Nat) : fnShr w u sat x.toNat b = ((x >>> (b % w)).toNat, 0) := by
  rw [fnShr, BitVec.toNat_ushiftRight, Nat.shiftRight_eq_div_pow]

theorem fnSra_eq (sat : Bool) (b : Nat) : fnSra w u sat x.toNat b = ((x.sshiftRight (b % w)).toNat, 0) := by
  have shifted : x.toInt / 2 ^ (b % w) = (x.sshiftRight (b % w)).toInt := by
    rw [BitVec.toInt_sshiftRight, Int.shiftRight_eq_div_pow, Nat.cast_pow, Nat.cast_ofNat]
  rw [fnSra, sval_toNat, shifted, wrapInt_eq_toNat_ofInt, BitVec.ofInt_toInt]

/-! ### Division -/

theorem fnDiv_zero (sat : Bool) (a : Nat) : fnDiv w u sat a 0 = ((BitVec.allOnes w).toNat, fDZ) := by
  rw [fnDiv, if_pos rfl, BitVec.toNat_allOnes]

theorem fnRem_zero (sat : Bool) (a : Nat) : fnRem w u sat a 0 = (a, fDZ) := if_pos rfl

variable {y} (hy : y ≠ 0) (sat : Bool)
include hy

theorem fnDiv_ne_zero : fnDiv w u sat x.toNat y.toNat = (wrapInt w ((ival w u x.toNat).tdiv (ival w u y.toNat)), 0) := if_neg (BitVec.toNat_ne.mp hy)
theorem fnRem_ne_zero : fnRem w u sat x.toNat y.toNat = (wrapInt w ((ival w u x.toNat).tmod (ival w u y.toNat)), 0) := if_neg (BitVec.toNat_ne.mp hy)

theorem fnDiv_unsigned : fnDiv w true sat x.toNat y.toNat = ((x / y).toNat, 0) := by
  rw [fnDiv_ne_zero true x hy, ival_true_toNat, ival_true_toNat, ← Int.ofNat_tdiv, ← BitVec.toNat_udiv, ← ival_true_toNat, wrapInt_ival]

theorem fnRem_unsigned : fnRem w true sat x.toNat y.toNat = ((x % y).toNat, 0) := by
  rw [fnRem_ne_zero true x hy, ival_true_toNat, ival_true_toNat, ← Int.ofNat_tmod, ← BitVec.toNat_umod, ← ival_true_toNat, wrapInt_ival]

theorem fnDiv_signed : fnDiv w false sat x.toNat y.toNat = ((x.sdiv y).toNat, 0) := by
  have quotient : BitVec.ofInt w (x.toInt.tdiv y.toInt) = x.sdiv y := BitVec.eq_of_toInt_eq (by rw [BitVec.toInt_ofInt, BitVec.toInt_sdiv])
  rw [fnDiv_ne_zero false x hy, ival_false_toNat, ival_false_toNat, wrapInt_eq_toNat_ofInt, quotient]

theorem fnRem_signed : fnRem w false sat x.toNat y.toNat = ((x.srem y).toNat, 0) := by
  rw [fnRem_ne_zero false x hy, ival_false_toNat, ival_false_toNat, ← BitVec.toInt_srem, wrapInt_eq_toNat_ofInt, BitVec.ofInt_toInt]

end

/-- A signed division by −1 leaves no remainder. -/
theorem srem_allOnes {w : Nat} (hw : 0 < w) (x : BitVec w) : x.srem (BitVec.allOnes w) = 0 := by
  apply BitVec.eq_of_toInt_eq
  rw [BitVec.toInt_srem, BitVec.toInt_allOnes, if_pos hw, Int.tmod_neg, Int.tmod_one]
  exact BitVec.toInt_zero.symm

theorem integerArithmeticFollowsBitVectors : IntegerArithmeticFollowsBitVectors := by
  intro w hw u x y
  refine ⟨⟨fnAdd_wraps u x y, fnSub_wraps u x y, fnMul_wraps u x y⟩, ?_, ⟨fnShl_eq u x false _, fnShr_eq u x false _, fnSra_eq u x false _⟩, ?_, ?_, ?_, ?_⟩
  · simp only [← ival_toNat, List.mem_cons, List.not_mem_nil, or_false, Prod.mk.injEq]
    rintro g v (⟨rfl, rfl⟩ | ⟨rfl, rfl⟩ | ⟨rfl, rfl⟩)
    all_goals exact ⟨rfl, arith_saturates u _ hw⟩
  · rintro rfl
    exact ⟨fnDiv_zero u false _, fnRem_zero u false _⟩
  · rintro hy rfl
    exact ⟨fnDiv_unsigned x hy false, fnRem_unsigned x hy false⟩
  · rintro hy rfl
    exact ⟨fnDiv_signed x hy false, fnRem_signed x hy false⟩
  · rintro rfl rfl rfl
    have hy : BitVec.allOnes w ≠ 0#w := by simp [hw.ne']
    constructor
    · rw [fnDiv_signed _ hy, ← BitVec.neg_one_eq_allOnes, BitVec.intMin_sdiv_neg_one]
    · rw [fnRem_signed _ hy, srem_allOnes hw]; rfl

/-! ### Conversions to integers (R118, R120) -/

theorem convert_float_to_int {src dst : Nat} (hs : 3 ≤ src) (hd : dst < 3) (u sat : Bool) (r : Rnd) (v : Nat) :
    convert src dst u sat r v = intOfVal (tWidth dst) u r ((tFmt src).unpack v) := by
  rw [convert, if_neg (Nat.not_lt.mpr hs), if_pos hd]

/-- The integer that a finite value rounds to. -/
def roundedInt (r : Rnd) (neg : Bool) (m : Nat) (e : Int) : Int :=
  let q := roundAt r neg ⟨m, e, false⟩ 0
  if neg then -(q.1 : Int) else q.1

section
variable (w : Nat) (u : Bool) (r : Rnd) (neg : Bool) (m : Nat) (e : Int)

theorem intOfVal_fin : intOfVal w u r (.fin neg m e) =
    if roundedInt r neg m e < intMin w u then ⟨wrapInt w (intMin w u), fNV⟩
    else if intMax w u < roundedInt r neg m e then ⟨wrapInt w (intMax w u), fNV⟩
    else ⟨wrapInt w (roundedInt r neg m e), if (roundAt r neg ⟨m, e, false⟩ 0).2 then fNX else 0⟩ := rfl

theorem intOfVal_below (h : roundedInt r neg m e < intMin w u) : intOfVal w u r (.fin neg m e) = ⟨wrapInt w (intMin w u), fNV⟩ := by
  rw [intOfVal_fin, if_pos h]

theorem intOfVal_above (h : intMax w u < roundedInt r neg m e) : intOfVal w u r (.fin neg m e) = ⟨wrapInt w (intMax w u), fNV⟩ := by
  have limits := intMin_le_intMax w u
  rw [intOfVal_fin, if_neg (by omega), if_pos h]

theorem intOfVal_within (lo : intMin w u ≤ roundedInt r neg m e) (hi : roundedInt r neg m e ≤ intMax w u) :
    intOfVal w u r (.fin neg m e) = ⟨wrapInt w (roundedInt r neg m e), if (roundAt r neg ⟨m, e, false⟩ 0).2 then fNX else 0⟩ := by
  rw [intOfVal_fin, if_neg (by omega), if_neg (by omega)]

end

/-- A value that is a whole number is not rounded. -/
theorem roundAt_whole (r : Rnd) (neg : Bool) (m : Nat) {e : Int} (he : 0 ≤ e) : roundAt r neg ⟨m, e, false⟩ 0 = (m * 2 ^ e.toNat, false) := by
  rw [roundAt, if_pos he, Int.sub_zero]

/-- Whether `n` units and a rest of `rem` parts in `one` round to the next unit, under RM (Table 4.4) or SR (R120). -/
def roundsUp (r : Rnd) (neg : Bool) (one n rem : Nat) : Bool :=
  match r with
  | .near => decide (one < 2 * rem ∨ (2 * rem = one ∧ n % 2 = 1))
  | .zero => false
  | .up => decide (rem ≠ 0 ∧ neg = false)
  | .down => decide (rem ≠ 0 ∧ neg = true)
  | .sr x => decide (65536 ≤ 65536 * rem / one + x)

/-- A value with a fraction rounds to a neighbouring integer, inexact unless its rest is 0. -/
theorem roundAt_fraction (r : Rnd) (neg : Bool) (m : Nat) {e : Int} (he : e < 0) :
    let one := 2 ^ (-e).toNat
    roundAt r neg ⟨m, e, false⟩ 0 = (if roundsUp r neg one (m / one) (m % one) then m / one + 1 else m / one, decide (m % one ≠ 0)) := by
  intro one
  rw [roundAt, if_neg (Int.not_le.mpr he), Int.zero_sub]
  simp only [Bool.or_false, Bool.false_or]
  cases r with
  | near => simp [roundsUp, one]
  | zero => rfl
  | up => simp [roundsUp, one]
  | down => simp [roundsUp, one]
  | sr x => rfl

theorem conversionToIntegerSaturates : ConversionToIntegerSaturates := by
  refine ⟨fun src dst v u sat r hs hd => convert_float_to_int hs hd u sat r v, fun w hw u r => ⟨fun sig => rfl, fun neg => rfl, fun neg m e => ?_⟩⟩
  exact ⟨intOfVal_below w u r neg m e, intOfVal_above w u r neg m e, intOfVal_within w u r neg m e, roundAt_whole r neg m, roundAt_fraction r neg m⟩

/-- Settles O10: integer functions wrap and clamp as `BitVec.ofInt` of the exact value, and a conversion clamps the integer its value rounds to. -/
theorem integerArithmeticWrapsOrSaturates : Obligations.IntegerArithmeticWrapsOrSaturates :=
  ⟨integerArithmeticFollowsBitVectors, conversionToIntegerSaturates⟩

end Sys2Proof.Machine
end

section
/-! Writes to RFE_CMP_STRIDE (10_raster.md R346): what a read of a sled's register returns after a write to it or to another one, the bits of a word after one of
them was set, and the obligation on accepted and refused writes. -/
namespace Sys2Proof.Machine

/-! ### One bit of a word -/

theorem bit_setBit {w : Nat} (v : BitVec w) {i : Nat} (hi : i < w) (b : Bool) (j : Nat) : bit (setBit v i b) j = if j = i then b else bit v j := by
  have mask : (2 ^ (i + 1 - i) - 1) * 2 ^ i = 2 ^ i := by simp
  simp only [bit, setBit, setFld, mask, BitVec.getLsbD_or, BitVec.getLsbD_and, BitVec.getLsbD_not, BitVec.getLsbD_ofNat, Nat.testBit_two_pow]
  by_cases h : j = i
  · subst h
    cases b <;> simp [hi]
  · have other : i ≠ j := Ne.symm h
    simpa [h, other] using BitVec.lt_of_getLsbD

/-! ### Registers of a sled -/

@[simp] theorem Sled.r32_w32 (d : Sled) (r : Reg) (i j : Nat) (v : Word32) : (d.w32 r v i j).r32 r i j = v := CfgSpace.r32_w32 d.cfg r i j v

theorem Sled.r32_w32_ne (d : Sled) {r q : Reg} {i j k l : Nat} (v : Word32) (h : regOff q k l ≠ regOff r i j) : (d.w32 r v i j).r32 q k l = d.r32 q k l :=
  mgetD_msetD_ne _ _ d.cfg.words v h

theorem Sled.bit_setRegBit (d : Sled) (r : Reg) {k : Nat} (hk : k < 32) (b : Bool) (i j : Nat) : bit ((d.setRegBit r k b i j).r32 r i j) k = b := by
  rw [Sled.setRegBit, Sled.r32_w32, bit_setBit _ hk, if_pos rfl]

/-! ### The write (R346) -/

/-- A write that R346 refuses: STRIDE is 0, or PHASE is not below it. -/
def strideRefused (v : Word32) : Prop := fld v 15 0 = 0 ∨ fld v 15 0 ≤ fld v 31 16

theorem exec_rfeCmpStrideWrite (who : Requester) (sl : SledId) (v : Word32) (s : State) :
    exec (.rfeCmpStrideWrite who sl v) s = .next (s.setSled sl ((s.sled sl).strideWrite v)) := rfl

theorem Sled.strideWrite_refused (d : Sled) {v : Word32} (h : strideRefused v) : d.strideWrite v = d.setRegBit .rfeCmpStatus 0 true := if_pos h

theorem Sled.strideWrite_accepted (d : Sled) {v : Word32} (h : ¬strideRefused v) :
    d.strideWrite v = (d.w32 .rfeCmpStride v).setRegBit .rfeCmpStatus 0 false := if_neg h

/-- Settles O48: a refused write only sets CFG_BAD; an accepted one stores the stride, which the status word does not overlap, and clears CFG_BAD. -/
theorem strideWritesAreChecked : Obligations.StrideWritesAreChecked := by
  intro who sl v s d no
  refine ⟨_, exec_rfeCmpStrideWrite who sl v s, ?_⟩
  rw [State.sled_setSled_self]
  by_cases h : no
  · rw [Sled.strideWrite_refused d h]
    exact ⟨(d.bit_setRegBit _ (by decide) _ 0 0).trans (decide_eq_true h).symm, rfl, fun _ => rfl, absurd h⟩
  · rw [Sled.strideWrite_accepted d h]
    refine ⟨(Sled.bit_setRegBit _ _ (by decide) _ 0 0).trans (decide_eq_false h).symm, rfl, fun hn => absurd hn h, fun _ => ?_⟩
    rw [Sled.setRegBit, Sled.r32_w32_ne _ _ (by decide), Sled.r32_w32]

end Sys2Proof.Machine
end
